-- ==== Sys2Proof/Word.lean ====
section
/-! DEFINITION. The word types of the block: bytes, frequencies. Times are natural numbers (spec R16, D3). -/

namespace Sys2Proof

/-- A byte, bit 7 the most significant (R9). -/
abbrev Byte := BitVec 8

/-- A frequency in Hz, `W_FREQ = 32` bits, unsigned (R7, R74, decision D15; log 20). -/
abbrev Freq := BitVec 32

end Sys2Proof
end

