-- ==== Sys2Proof/Machine/Radio.lean ====
section
/-! DEFINITION. The radio-state collaborator as the block sees it: what its getters return, and the calls that
change it (spec R27, R28, R122). Plain data. -/

namespace Sys2Proof

/-- The three answers of `getMode()` (R27, R122). -/
inductive Mode where
  | usb
  | lsb
  | other
  deriving DecidableEq, Repr, Inhabited

/-- The two VFO designators (R12, R27). -/
inductive Vfo where
  | a
  | b
  deriving DecidableEq, Repr, Inhabited

/-- The radio state (R27), the CAT-initiated flag (R28), and what the collaborator keeps behind its
interface (`hidden`, the model's own field; log 8). -/
structure Radio where
  freqHz       : Freq
  mode         : Mode
  vfo          : Vfo
  split        : Bool
  transmitting : Bool
  sideTone     : Nat
  cwDit        : Nat
  cwTimeout    : Nat
  catTx        : Bool
  hidden       : Nat
  deriving DecidableEq, Repr, Inhabited

/-- The calls of the interface of R122 that return nothing, with `setCatTx` of R28. -/
inductive RadioCall where
  | setFrequencyHz (f : Freq)
  | setMode (m : Mode)
  | setActiveVfo (v : Vfo)
  | setSplitOn (on : Bool)
  | startTransmit (kind : Nat)
  | stopTransmit
  | setCatTx (on : Bool)
  deriving DecidableEq, Repr

/-- The getters of the interface of R122, the three settings accessors among them. -/
inductive Getter where
  | getFrequencyHz
  | getMode
  | getActiveVfo
  | isSplitOn
  | isTransmitting
  | getSideTone
  | getCwDit
  | getCwTimeout
  deriving DecidableEq, Repr

/-- What a getter answers. -/
inductive Answer where
  | freq (f : Freq)
  | mode (m : Mode)
  | vfo (v : Vfo)
  | flag (b : Bool)
  | setting (n : Nat)
  deriving DecidableEq, Repr

end Sys2Proof
end

