-- ==== Sys2Proof/Config.lean ====
section
/-! DEFINITION. The parameters the spec leaves open (R7, R30), as types, and the free values: constants without a
body for what no rule settles. The default values the spec names for the others stand in Machine/Opcodes.lean,
Machine/Operands.lean and Machine/Flags.lean. -/

namespace Sys2Proof

/-- The ten opcode parameters of R50; `OP_LEGACY` is fixed by the source (R6) and is no parameter. -/
structure OpcodeMap where
  setFreq      : Byte
  splitOn      : Byte
  splitOff     : Byte
  readFreqMode : Byte
  mode         : Byte
  pttOn        : Byte
  pttOff       : Byte
  vfoToggle    : Byte
  readRxStatus : Byte
  readTxStatus : Byte
  deriving DecidableEq, Repr

/-- The four flag positions of the RX status register (R57). -/
structure RxLayout where
  discOff : Nat
  sql     : Nat
  code    : Nat
  dummy   : Nat
  deriving DecidableEq, Repr

/-- "The four positions of one register are pairwise different and lie in 4..7" (R56). -/
abbrev RxLayout.Valid (l : RxLayout) : Prop :=
  [l.discOff, l.sql, l.code, l.dummy].Nodup ∧ ∀ p ∈ [l.discOff, l.sql, l.code, l.dummy], 4 ≤ p ∧ p ≤ 7

/-- The four flag positions of the TX status register (R58). -/
structure TxLayout where
  pttOff   : Nat
  splitOff : Nat
  hiSwr    : Nat
  dummy    : Nat
  deriving DecidableEq, Repr

/-- The constraint of R56 on the TX positions. -/
abbrev TxLayout.Valid (l : TxLayout) : Prop :=
  [l.pttOff, l.splitOff, l.hiSwr, l.dummy].Nodup ∧
    ∀ p ∈ [l.pttOff, l.splitOff, l.hiSwr, l.dummy], 4 ≤ p ∧ p ≤ 7

/-- The two `P1` values that select lower sideband (R59). -/
structure ModeSelectors where
  lsb0 : Byte
  lsb1 : Byte
  deriving DecidableEq, Repr

/-- "The two must differ from each other" (R59). -/
abbrev ModeSelectors.Valid (m : ModeSelectors) : Prop := m.lsb0 ≠ m.lsb1

/-- How a legacy entry comes to its pair: it may call getters of the collaborator, as many as it likes and each chosen from
the answers before, and nothing else (R106); then it gives the pair. -/
inductive LegacyProgram where
  | reply (r0 r1 : Byte)
  | ask (g : Getter) (next : Answer → LegacyProgram)

/-- One recognised entry: the low byte it checks, if it checks one (R110), and its program. -/
structure LegacyEntry where
  expectP1 : Option Byte
  program  : LegacyProgram

/-- `LEGACY_TABLE` (R7, R106 to R110): the two constants of the active-VFO entry (R108), and the other entries by
selector; `none` is an unrecognised selector (R107). -/
structure LegacyTable where
  vfoFixed : Byte
  vfoR1    : Byte
  entry    : Byte → Option LegacyEntry

/-- The parameters of the step function (R7, R30). `timeoutMs` is `TIMEOUT_MS`, which the source fixes (R6); `react` is what
the radio collaborator does on a call (R122; log 8). `FRAME_LEN` and `OP_LEGACY` are built in (log 25). -/
structure Params where
  opcodes   : OpcodeMap
  timeoutMs : Nat
  rx        : RxLayout
  tx        : TxLayout
  selectors : ModeSelectors
  legacy    : LegacyTable
  txKindCat : Nat
  react     : RadioCall → Radio → Radio

/-- FREE VALUE (log 7): the argument `PttOn` gives to `startTransmit` (R7, N8, D14). -/
opaque Config.txKindCat : Nat

/-- FREE VALUE (log 8): the radio after a call. "The block assumes nothing about what a setter does inside the
collaborator" (R122); the reference store of D18 must not be built in. -/
opaque Config.radioReact : RadioCall → Radio → Radio

/-- FREE VALUE (log 6): the recognised selectors other than 0x55 and their entries (N3, U6, D12). -/
opaque Config.legacyEntry : Byte → Option LegacyEntry

/-- FREE VALUE (log 6): `LEGACY_VFO_FIXED` of R108. -/
opaque Config.legacyVfoFixed : Byte

/-- FREE VALUE (log 6): `LEGACY_VFO_R1` of R108. -/
opaque Config.legacyVfoR1 : Byte

end Sys2Proof
end

