-- ==== Sys2Proof/Machine/Opcodes.lean ====
section
/-! DEFINITION. The opcode byte of every row of spec/opcode_table.json, and the constraint of R51. -/

namespace Sys2Proof

/-- `OP_LEGACY = 0xBB`, the one opcode value the source gives (R6, R51 (c)). -/
def opLegacy : Byte := 0xBB

/-- The source's example of an unknown opcode (R51 (b)). -/
def opUnknownExample : Byte := 0x99

/-- The defaults of R50. PRESUMED (log 3): the FT-817 values, which the spec marks as general knowledge. -/
def defaultOpcodes : OpcodeMap where
  setFreq      := 0x01
  splitOn      := 0x02
  splitOff     := 0x82
  readFreqMode := 0x03
  mode         := 0x07
  pttOn        := 0x08
  pttOff       := 0x88
  vfoToggle    := 0x81
  readRxStatus := 0xE7
  readTxStatus := 0xF7

/-- The eleven handled values (R50). -/
def OpcodeMap.handled (m : OpcodeMap) : List Byte :=
  [m.setFreq, m.splitOn, m.splitOff, m.readFreqMode, m.mode, m.pttOn, m.pttOff, m.vfoToggle, opLegacy,
    m.readRxStatus, m.readTxStatus]

/-- R51: the eleven values are pairwise different and none is 0x99. -/
abbrev OpcodeMap.Valid (m : OpcodeMap) : Prop := m.handled.Nodup ∧ opUnknownExample ∉ m.handled

/-- The constraints a choice of the parameters must meet (R51, R56, R59). -/
abbrev Params.Valid (P : Params) : Prop := P.opcodes.Valid ∧ P.rx.Valid ∧ P.tx.Valid ∧ P.selectors.Valid

/-- The opcode bytes of the thirteen rows that are instances of `DEFAULT` (R52, R53): the source's 0x99, then
the informative rows in the table's order (PRESUMED values, log 17). -/
def defaultInstances : List Byte :=
  [opUnknownExample, 0x00, 0x80, 0x05, 0x85, 0xF5, 0x09, 0xF9, 0x0A, 0x0B, 0x0C, 0x0F, 0x8F]

end Sys2Proof
end

