-- ==== Sys2Proof/Syntax.lean ====
section
/-! DEFINITION. The frame (R14, R46, R47) and the instructions: one constructor per row of
spec/opcode_table.json, each with its four parameter bytes, ignored or not (R63). -/

namespace Sys2Proof

/-- A 5-byte frame `P1 P2 P3 P4 CMD`; also the frame buffer, byte `k` being `buf[k]` (R14, R47). -/
structure Frame where
  p1  : Byte
  p2  : Byte
  p3  : Byte
  p4  : Byte
  cmd : Byte
  deriving DecidableEq, Repr, Inhabited

/-- The rows of the opcode table, in its order. `defaultOp` is the catch-all row `DEFAULT` and carries its
opcode byte; the thirteen after it are the rows the table calls instances of `DEFAULT` (R52, R53; log 17). -/
inductive Instr where
  | setfreq (p1 p2 p3 p4 : Byte)
  | spliton (p1 p2 p3 p4 : Byte)
  | splitoff (p1 p2 p3 p4 : Byte)
  | rdfreq (p1 p2 p3 p4 : Byte)
  | mode (p1 p2 p3 p4 : Byte)
  | ptton (p1 p2 p3 p4 : Byte)
  | pttoff (p1 p2 p3 p4 : Byte)
  | vfotog (p1 p2 p3 p4 : Byte)
  | rdlegacy (p1 p2 p3 p4 : Byte)
  | rdrxs (p1 p2 p3 p4 : Byte)
  | rdtxs (p1 p2 p3 p4 : Byte)
  | defaultOp (p1 p2 p3 p4 cmd : Byte)
  | defaultX99 (p1 p2 p3 p4 : Byte)
  | lockon (p1 p2 p3 p4 : Byte)
  | lockoff (p1 p2 p3 p4 : Byte)
  | claron (p1 p2 p3 p4 : Byte)
  | claroff (p1 p2 p3 p4 : Byte)
  | clarfreq (p1 p2 p3 p4 : Byte)
  | rptdir (p1 p2 p3 p4 : Byte)
  | rptfreq (p1 p2 p3 p4 : Byte)
  | tonemode (p1 p2 p3 p4 : Byte)
  | ctcss (p1 p2 p3 p4 : Byte)
  | dcs (p1 p2 p3 p4 : Byte)
  | pwron (p1 p2 p3 p4 : Byte)
  | pwroff (p1 p2 p3 p4 : Byte)
  deriving DecidableEq, Repr

end Sys2Proof
end

