-- ==== Sys2Proof/WellFormed.lean ====
section
/-! DEFINITION. Which instructions are the reading of some frame, for any choice `m` of the opcode parameters. -/

namespace Sys2Proof

/-- The opcode byte of the instances of `DEFAULT` that are rows of their own; `none` for every other
instruction. -/
def Instr.instanceOpcode : Instr → Option Byte
  | .setfreq _ _ _ _ | .spliton _ _ _ _ | .splitoff _ _ _ _ | .rdfreq _ _ _ _ | .mode _ _ _ _
  | .ptton _ _ _ _ | .pttoff _ _ _ _ | .vfotog _ _ _ _ | .rdlegacy _ _ _ _ | .rdrxs _ _ _ _
  | .rdtxs _ _ _ _ | .defaultOp _ _ _ _ _ => none
  | .defaultX99 _ _ _ _ => some opUnknownExample
  | .lockon _ _ _ _ => some 0x00
  | .lockoff _ _ _ _ => some 0x80
  | .claron _ _ _ _ => some 0x05
  | .claroff _ _ _ _ => some 0x85
  | .clarfreq _ _ _ _ => some 0xF5
  | .rptdir _ _ _ _ => some 0x09
  | .rptfreq _ _ _ _ => some 0xF9
  | .tonemode _ _ _ _ => some 0x0A
  | .ctcss _ _ _ _ => some 0x0B
  | .dcs _ _ _ _ => some 0x0C
  | .pwron _ _ _ _ => some 0x0F
  | .pwroff _ _ _ _ => some 0x8F

/-- Check 1: `DEFAULT` is "none of the eleven handled values" (R103), and not a value that has a row of its
own. Check 2: an instance of `DEFAULT` does not collide with a handled value (R53). -/
def Instr.wellFormedFor (m : OpcodeMap) (i : Instr) : Bool :=
  match i with
  | .defaultOp _ _ _ _ cmd => !m.handled.contains cmd && !defaultInstances.contains cmd
  | i =>
    match i.instanceOpcode with
    | none => true
    | some op => !m.handled.contains op

/-- Well-formedness for the opcode values of this model. -/
def Instr.wellFormed (i : Instr) : Bool := i.wellFormedFor defaultOpcodes

end Sys2Proof
end

