-- ==== Sys2Proof/Decode.lean ====
section
/-! DEFINITION. Decoding (R46 to R53) and, after it, encoding. Dispatch is on the opcode byte alone (R48); every
value of it selects one row (R52). The functions ending in `With` take the opcode parameters. -/

namespace Sys2Proof

/-- `buf[i]` (R10, R14). -/
def Frame.get (f : Frame) (i : Fin 5) : Byte :=
  if i = 0 then f.p1 else if i = 1 then f.p2 else if i = 2 then f.p3 else if i = 3 then f.p4 else f.cmd

/-- `buf[i] <- v` (R10, R14). -/
def Frame.set (f : Frame) (i : Fin 5) (v : Byte) : Frame :=
  if i = 0 then { f with p1 := v }
  else if i = 1 then { f with p2 := v }
  else if i = 2 then { f with p3 := v }
  else if i = 3 then { f with p4 := v }
  else { f with cmd := v }

/-- The bytes of a frame in order of arrival (R35). -/
def Frame.bytes (f : Frame) : List Byte := [f.p1, f.p2, f.p3, f.p4, f.cmd]

/-- A row of the opcode map: the opcode byte, and the instruction for the four parameter bytes. -/
abbrev OpcodeRow := Byte × (Byte → Byte → Byte → Byte → Instr)

/-- The eleven handled commands, in the order of R50 and R91. -/
def handledRows (m : OpcodeMap) : List OpcodeRow :=
  [(m.setFreq, .setfreq),
   (m.splitOn, .spliton),
   (m.splitOff, .splitoff),
   (m.readFreqMode, .rdfreq),
   (m.mode, .mode),
   (m.pttOn, .ptton),
   (m.pttOff, .pttoff),
   (m.vfoToggle, .vfotog),
   (opLegacy, .rdlegacy),
   (m.readRxStatus, .rdrxs),
   (m.readTxStatus, .rdtxs)]

/-- The thirteen instances of `DEFAULT` that the opcode table gives a row (R52, R53). -/
def instanceRows : List OpcodeRow :=
  [(opUnknownExample, .defaultX99),
   (0x00, .lockon),
   (0x80, .lockoff),
   (0x05, .claron),
   (0x85, .claroff),
   (0xF5, .clarfreq),
   (0x09, .rptdir),
   (0xF9, .rptfreq),
   (0x0A, .tonemode),
   (0x0B, .ctcss),
   (0x0C, .dcs),
   (0x0F, .pwron),
   (0x8F, .pwroff)]

/-- The first row whose opcode byte is the frame's; nothing else of the frame takes part in the choice (R48). -/
def lookupRow : List OpcodeRow → Frame → Option Instr
  | [], _ => none
  | row :: rows, f => if f.cmd = row.1 then some (row.2 f.p1 f.p2 f.p3 f.p4) else lookupRow rows f

/-- The rows of the default rule: one of its instances, or the catch-all `DEFAULT` (R52, R103). -/
def decodeDefaultRow (f : Frame) : Instr :=
  (lookupRow instanceRows f).getD (.defaultOp f.p1 f.p2 f.p3 f.p4 f.cmd)

/-- One of the eleven commands, "otherwise -> Default" (R91), with the opcode parameters `m`. -/
def decodeWith (m : OpcodeMap) (f : Frame) : Instr := (lookupRow (handledRows m) f).getD (decodeDefaultRow f)

/-- Decoding with this model's opcode values. -/
def decode (f : Frame) : Instr := decodeWith defaultOpcodes f

/-- Why a byte sequence is not one command. -/
inductive DecodeError where
  /-- Fewer than five bytes: a partial frame (R54, R63). -/
  | partialFrame (have_ : Nat)
  /-- More than five bytes: the start of the next frame follows (R54). -/
  | trailingBytes (extra : Nat)
  deriving DecidableEq, Repr

/-- A command is exactly five bytes (R46, R54); any five bytes are one (R38, R52). -/
def decodeBytes : List Byte → Except DecodeError Instr
  | [p1, p2, p3, p4, cmd] => .ok (decode ⟨p1, p2, p3, p4, cmd⟩)
  | bs => .error (if bs.length < 5 then .partialFrame bs.length else .trailingBytes (bs.length - 5))

/-- The 40-bit pattern of R47: `P1` in bits 39:32, `CMD` in bits 7:0. -/
def frameOfPattern (w : Nat) : Frame where
  p1  := BitVec.ofNat 8 (w >>> 32)
  p2  := BitVec.ofNat 8 (w >>> 24)
  p3  := BitVec.ofNat 8 (w >>> 16)
  p4  := BitVec.ofNat 8 (w >>> 8)
  cmd := BitVec.ofNat 8 w

/-- The frame of a table word of `nbits` bits, numbered as the table numbers it: the opcode byte is bits 7:0 and
arrives last (R47; log 1). Bits from `nbits` up are 0. -/
def frameOfTableWord (nbits w : Nat) : Frame := frameOfPattern (w % 2 ^ nbits)

/-- The instruction the decoder reads from a table word; a word wider than the one format is no instruction
(R46). -/
def decodeTableWord (nbits w : Nat) : Option Instr :=
  if nbits ≤ 40 then (decodeBytes (frameOfTableWord nbits w).bytes).toOption else none

/-- The frame of an instruction, from the encoding lines of R92 to R103 and the opcode table. -/
def encodeWith (m : OpcodeMap) : Instr → Frame
  | .setfreq p1 p2 p3 p4 => ⟨p1, p2, p3, p4, m.setFreq⟩
  | .spliton p1 p2 p3 p4 => ⟨p1, p2, p3, p4, m.splitOn⟩
  | .splitoff p1 p2 p3 p4 => ⟨p1, p2, p3, p4, m.splitOff⟩
  | .rdfreq p1 p2 p3 p4 => ⟨p1, p2, p3, p4, m.readFreqMode⟩
  | .mode p1 p2 p3 p4 => ⟨p1, p2, p3, p4, m.mode⟩
  | .ptton p1 p2 p3 p4 => ⟨p1, p2, p3, p4, m.pttOn⟩
  | .pttoff p1 p2 p3 p4 => ⟨p1, p2, p3, p4, m.pttOff⟩
  | .vfotog p1 p2 p3 p4 => ⟨p1, p2, p3, p4, m.vfoToggle⟩
  | .rdlegacy p1 p2 p3 p4 => ⟨p1, p2, p3, p4, opLegacy⟩
  | .rdrxs p1 p2 p3 p4 => ⟨p1, p2, p3, p4, m.readRxStatus⟩
  | .rdtxs p1 p2 p3 p4 => ⟨p1, p2, p3, p4, m.readTxStatus⟩
  | .defaultOp p1 p2 p3 p4 cmd => ⟨p1, p2, p3, p4, cmd⟩
  | .defaultX99 p1 p2 p3 p4 => ⟨p1, p2, p3, p4, opUnknownExample⟩
  | .lockon p1 p2 p3 p4 => ⟨p1, p2, p3, p4, 0x00⟩
  | .lockoff p1 p2 p3 p4 => ⟨p1, p2, p3, p4, 0x80⟩
  | .claron p1 p2 p3 p4 => ⟨p1, p2, p3, p4, 0x05⟩
  | .claroff p1 p2 p3 p4 => ⟨p1, p2, p3, p4, 0x85⟩
  | .clarfreq p1 p2 p3 p4 => ⟨p1, p2, p3, p4, 0xF5⟩
  | .rptdir p1 p2 p3 p4 => ⟨p1, p2, p3, p4, 0x09⟩
  | .rptfreq p1 p2 p3 p4 => ⟨p1, p2, p3, p4, 0xF9⟩
  | .tonemode p1 p2 p3 p4 => ⟨p1, p2, p3, p4, 0x0A⟩
  | .ctcss p1 p2 p3 p4 => ⟨p1, p2, p3, p4, 0x0B⟩
  | .dcs p1 p2 p3 p4 => ⟨p1, p2, p3, p4, 0x0C⟩
  | .pwron p1 p2 p3 p4 => ⟨p1, p2, p3, p4, 0x0F⟩
  | .pwroff p1 p2 p3 p4 => ⟨p1, p2, p3, p4, 0x8F⟩

/-- Encoding with this model's opcode values. -/
def encode (i : Instr) : Frame := encodeWith defaultOpcodes i

/-- The bytes of an instruction, first to arrive first (R35). -/
def encodeBytes (i : Instr) : List Byte := (encode i).bytes

end Sys2Proof
end

