-- ==== Sys2Proof/Machine/Flags.lean ====
section
/-! DEFINITION. The status registers, built anew for each reply (R22, R23, R56 to R58, R72, R73). They are the only
flags of the block (R21). -/

namespace Sys2Proof.Machine

/-- One flag at bit position `pos`. -/
def flagAt (flag : Bool) (pos : Nat) : Byte := (if flag then 1 else 0) <<< pos

/-- `buildRxStatus(meter, discOff, sql, code, dummy)` (R72). -/
def buildRxStatus (l : RxLayout) (meter : Byte) (discOff sql code dummy : Bool) : Byte :=
  (meter &&& 0x0F) ||| flagAt discOff l.discOff ||| flagAt sql l.sql ||| flagAt code l.code |||
    flagAt dummy l.dummy

/-- `buildTxStatus(power, pttOff, splitOff, hiSwr, dummy)` (R73). -/
def buildTxStatus (l : TxLayout) (power : Byte) (pttOff splitOff hiSwr dummy : Bool) : Byte :=
  (power &&& 0x0F) ||| flagAt pttOff l.pttOff ||| flagAt splitOff l.splitOff ||| flagAt hiSwr l.hiSwr |||
    flagAt dummy l.dummy

/-- The RX status register (R22, R101): meter 9, discriminator-centering-off 1, the others 0. -/
def rxStatusByte (l : RxLayout) : Byte := buildRxStatus l 9 true false false false

/-- The TX status register (R23, R102): power 0xF, each named flag 1 when its thing is off, the others 0. -/
def txStatusByte (l : TxLayout) (transmitting split : Bool) : Byte :=
  buildTxStatus l 0xF (!transmitting) (!split) false false

/-- The RX positions of R57. PRESUMED (log 4): FT-817, general knowledge by the spec's own mark. -/
def defaultRxLayout : RxLayout where
  discOff := 5
  sql     := 7
  code    := 6
  dummy   := 4

/-- The TX positions of R58. PRESUMED (log 4), as for RX. -/
def defaultTxLayout : TxLayout where
  pttOff   := 7
  splitOff := 5
  hiSwr    := 6
  dummy    := 4

end Sys2Proof.Machine
end

