-- ==== Sys2Proof/Machine/Operands.lean ====
section
/-! DEFINITION. The operand forms: decimal digits, packed BCD frequencies and nibbles (40_codec.md R64 to R71), and
the mode bytes (30_encoding.md R59). Pure functions without errors. -/

namespace Sys2Proof.Machine

/-- `digitsOf(n, count)`, least-significant digit first (R64). -/
def digitsOf (n count : Nat) : List Nat := (List.range count).map fun i => n / 10 ^ i % 10

/-- R68: bits 7:4. -/
def getHighNibble (b : Byte) : Byte := b >>> 4

/-- R69: bits 3:0. -/
def getLowNibble (b : Byte) : Byte := b &&& 0x0F

/-- R70; a value above 15 is masked (D16). -/
def setHighNibble (b v : Byte) : Byte := (b &&& 0x0F) ||| ((v &&& 0x0F) <<< 4)

/-- R71; a value above 15 is masked (D16). -/
def setLowNibble (b v : Byte) : Byte := (b &&& 0xF0) ||| (v &&& 0x0F)

/-- Two digits in one byte, `(hi << 4) | lo`, by the packing law of R71. -/
def packDigits (hi lo : Nat) : Byte :=
  setHighNibble (setLowNibble 0 (BitVec.ofNat 8 lo)) (BitVec.ofNat 8 hi)

/-- `encodeFrequencyBCD(freqHz)` (R65): digit pairs (8,7), (6,5), (4,3), (2,1); digit 0 is discarded. -/
def encodeFrequencyBCD (f : Freq) : List Byte :=
  let d := digitsOf f.toNat 9
  [packDigits (d.getD 8 0) (d.getD 7 0), packDigits (d.getD 6 0) (d.getD 5 0),
    packDigits (d.getD 4 0) (d.getD 3 0), packDigits (d.getD 2 0) (d.getD 1 0)]

/-- One round of the accumulation of R66: `value*100 + 10*highNibble + lowNibble`. -/
def accumulateBCD (value : Nat) (b : Byte) : Nat :=
  value * 100 + 10 * (getHighNibble b).toNat + (getLowNibble b).toNat

/-- `decodeFrequencyBCD(b0, b1, b2, b3)` (R66); nibbles above 9 count at their numeric value. -/
def decodeFrequencyBCD (b0 b1 b2 b3 : Byte) : Freq :=
  BitVec.ofNat 32 (accumulateBCD (accumulateBCD (accumulateBCD (accumulateBCD 0 b0) b1) b2) b3 * 10)

/-- The mode code of byte 4 of the `RDFREQ` reply (R59): `MODE_CODE_USB` or `MODE_CODE_LSB` (R6). -/
def modeCode (m : Mode) : Byte := if m = .usb then 0x01 else 0x00

/-- The mode a selector byte names (R59, R96). -/
def selectMode (sel : ModeSelectors) (p1 : Byte) : Mode :=
  if p1 = sel.lsb0 ∨ p1 = sel.lsb1 then .lsb else .usb

/-- The selectors' defaults (R59). PRESUMED (log 5): FT-817 codes, general knowledge by the spec's own mark. -/
def defaultSelectors : ModeSelectors where
  lsb0 := 0x00
  lsb1 := 0x03

/-- The other designator (R99). -/
def otherVfo (v : Vfo) : Vfo := if v = .a then .b else .a

end Sys2Proof.Machine
end

