-- ==== Sys2Proof/Machine/State.lean ====
section
/-! DEFINITION. The state of the block and of what its rules observe (10_state.md), the reasons a step could stop,
and the state after reset. Plain data. -/

namespace Sys2Proof.Machine

/-- One entry of the ordered trace (R11, R42): a getter call, a call that changes the radio collaborator, a display
refresh, one `TxWrite`, and the model's own mark where a dispatch starts (log 15). -/
inductive Event where
  | get (g : Getter)
  | call (c : RadioCall)
  | refresh
  | write (bs : List Byte)
  | dispatch (f : Frame)
  deriving DecidableEq, Repr

/-- What the environment does before one tick (R30, R121, R128, R129; log 12): the framer may be reset,
milliseconds pass, bytes reach the transport, the radio state may become another. -/
structure TickInput where
  reset    : Bool
  elapsed  : Nat
  arrivals : List Byte
  radio    : Option Radio
  deriving DecidableEq, Repr

/-- The framer (`buf`, `fill`, `deadline`, `armed`: R13 to R18), the transport's receive queue (R26, R32), the time
base (R126), the radio collaborator (R27, R28), the trace of calls and writes (R11), and the environment's coming
moves (R30). `fill` is 0..4: the transient 5 of R15 is the event "would become 5" (C4; log 16). -/
structure State where
  buf      : Frame
  fill     : Fin 5
  deadline : Nat
  armed    : Bool
  rx       : List Byte
  now      : Nat
  radio    : Radio
  trace    : List Event
  schedule : List TickInput
  deriving DecidableEq, Repr

/-- The machine stops with a fault: never. "The block raises no exception, has no fault state and never stops"
(R113), so there is no constructor, and nobody raises one. -/
inductive Fault where
  deriving DecidableEq, Repr

/-- An instruction without a meaning. -/
inductive Refusal where
  /-- Raised by an arm of `exec` whose instruction has no meaning yet; no arm is one. Safe: the model would stop
  where the hardware goes on. -/
  | notModelled (mnemonic : String)
  deriving DecidableEq, Repr

/-- The frame buffer after reset. DESIGN CHOICE (log 10): R29 leaves it unspecified. -/
def resetBuf : Frame := ⟨0, 0, 0, 0, 0⟩

/-- The radio state that stands in `State.reset`. DESIGN CHOICE (log 11): R29 leaves it to the environment; the
values are those the spec's test vectors start from. -/
def resetRadio : Radio where
  freqHz       := 0
  mode         := .lsb
  vfo          := .a
  split        := false
  transmitting := false
  sideTone     := 0
  cwDit        := 0
  cwTimeout    := 0
  catTx        := false
  hidden       := 0

/-- The reset event (R129): the framer is constructed anew, in `Idle`, with the values of R29 (and those of log 10
for `buf` and `deadline`). Nothing is written, called or taken, and the transport is not flushed (R130 (d)). -/
def State.resetFramer (s : State) : State :=
  { s with buf := resetBuf, fill := 0, deadline := 0, armed := false }

/-- The machine right after reset (R29, R129). -/
def State.reset : State where
  buf      := resetBuf
  fill     := 0
  deadline := 0
  armed    := false
  rx       := []
  now      := 0
  radio    := resetRadio
  trace    := []
  schedule := []

end Sys2Proof.Machine
end

