-- ==== Sys2Proof/Machine/Ops.lean ====
section
/-! DEFINITION. The named operations the meanings are written over: collaborator calls, transport writes, and the
writes of the frame buffer. The spec has no exception to take and none to return from (R113, R120), so there is no
such operation here. -/

namespace Sys2Proof.Machine

/-- `TIMEOUT_MS` (R6, R144). -/
def timeoutMs : Nat := 500

/-- The parameters the machine of the host's interface runs with (R7): the spec's defaults where it names one, a free value
elsewhere. Machine/Parametric.lean has the machine for any others (R30). -/
def params : Params where
  opcodes   := defaultOpcodes
  timeoutMs := timeoutMs
  rx        := defaultRxLayout
  tx        := defaultTxLayout
  selectors := defaultSelectors
  legacy    := ⟨Config.legacyVfoFixed, Config.legacyVfoR1, Config.legacyEntry⟩
  txKindCat := Config.txKindCat
  react     := Config.radioReact

/-- The radio after a call: whatever the collaborator makes of it (R122; log 8), its CAT-initiated flag included (R28;
log 9). -/
def radioAfter (P : Params) (c : RadioCall) (r : Radio) : Radio := P.react c r

/-- What a getter answers: "whatever the collaborator holds at the call" (R42, R122). -/
def getterAnswer (g : Getter) (r : Radio) : Answer :=
  match g with
  | .getFrequencyHz => .freq r.freqHz
  | .getMode => .mode r.mode
  | .getActiveVfo => .vfo r.vfo
  | .isSplitOn => .flag r.split
  | .isTransmitting => .flag r.transmitting
  | .getSideTone => .setting r.sideTone
  | .getCwDit => .setting r.cwDit
  | .getCwTimeout => .setting r.cwTimeout

/-- Record one event, after all earlier ones (R11, R42). -/
def emit (e : Event) (s : State) : State := { s with trace := s.trace ++ [e] }

/-- A getter call: no side effect (R39). -/
def radioGet (g : Getter) (s : State) : State := emit (.get g) s

/-- Getter calls in a row. -/
def radioGets (gs : List Getter) (s : State) : State := { s with trace := s.trace ++ gs.map .get }

/-- A call that may change the radio. -/
def radioCall (P : Params) (c : RadioCall) (s : State) : State :=
  emit (.call c) { s with radio := radioAfter P c s.radio }

/-- `Display.refresh()` (R123). -/
def refresh (s : State) : State := emit .refresh s

/-- `TxWrite(bs)`: one call of the transport, never blocked (R33; log 18). -/
def txWrite (bs : List Byte) (s : State) : State := emit (.write bs) s

/-- The writes of `buf[0]` and `buf[1]` by the legacy handler (R14, R106). -/
def setP1P2 (r0 r1 : Byte) (s : State) : State := { s with buf := { s.buf with p1 := r0, p2 := r1 } }

/-- `REPLY_ACK` (R6). -/
def replyAck : Byte := 0x00

/-- `REPLY_BUSY` (R6). -/
def replyBusy : Byte := 0xF0

/-- The bytes an event gives to the transport. -/
def Event.bytes : Event → List Byte
  | .write bs => bs
  | .get _ | .call _ | .refresh | .dispatch _ => []

/-- The reply stream (R26 (b)): every byte given to `TxWrite`, in order. -/
def State.replyStream (s : State) : List Byte := s.trace.flatMap Event.bytes

end Sys2Proof.Machine
end

