-- ==== Sys2Proof/Machine/Default.lean ====
section
/-! DEFINITION. The default rule (R52, R103, R115) and its thirteen instances in the opcode table (R53): each row
has a definition of its own over the one operation. -/

namespace Sys2Proof.Machine

/-- Default (R103): one zero byte; no collaborator is called. -/
def acknowledge (s : State) : State := txWrite [replyAck] s

/-- `DEFAULT`, R103. -/
def execDefaultOp (s : State) : Host.Outcome State Fault Refusal := .next (acknowledge s)

/-- `DEFAULT.X99`, R103. -/
def execDefaultX99 (s : State) : Host.Outcome State Fault Refusal := .next (acknowledge s)

/-- `LOCKON`, R103. -/
def execLockon (s : State) : Host.Outcome State Fault Refusal := .next (acknowledge s)

/-- `LOCKOFF`, R103. -/
def execLockoff (s : State) : Host.Outcome State Fault Refusal := .next (acknowledge s)

/-- `CLARON`, R103. -/
def execClaron (s : State) : Host.Outcome State Fault Refusal := .next (acknowledge s)

/-- `CLAROFF`, R103. -/
def execClaroff (s : State) : Host.Outcome State Fault Refusal := .next (acknowledge s)

/-- `CLARFREQ`, R103. -/
def execClarfreq (s : State) : Host.Outcome State Fault Refusal := .next (acknowledge s)

/-- `RPTDIR`, R103. -/
def execRptdir (s : State) : Host.Outcome State Fault Refusal := .next (acknowledge s)

/-- `RPTFREQ`, R103. -/
def execRptfreq (s : State) : Host.Outcome State Fault Refusal := .next (acknowledge s)

/-- `TONEMODE`, R103. -/
def execTonemode (s : State) : Host.Outcome State Fault Refusal := .next (acknowledge s)

/-- `CTCSS`, R103. -/
def execCtcss (s : State) : Host.Outcome State Fault Refusal := .next (acknowledge s)

/-- `DCS`, R103. -/
def execDcs (s : State) : Host.Outcome State Fault Refusal := .next (acknowledge s)

/-- `PWRON`, R103. -/
def execPwron (s : State) : Host.Outcome State Fault Refusal := .next (acknowledge s)

/-- `PWROFF`, R103. -/
def execPwroff (s : State) : Host.Outcome State Fault Refusal := .next (acknowledge s)

end Sys2Proof.Machine
end

