-- ==== Sys2Proof/Machine/Legacy.lean ====
section
/-! DEFINITION. The legacy-register table and its read: R100, R105 to R112. -/

namespace Sys2Proof.Machine

/-- The kinds of entry R109 names: a constant pair, and the six that depend on radio state. They classify entries; the table is
not confined to them ("the laws of rules R107, R108 and R110 as the only premises"). -/
inductive LegacyKind where
  | fixed
  | activeVfo
  | sideTone
  | txTimeout
  | cwSpeed
  | split
  | activeMode
  deriving DecidableEq, Repr

/-- The getters the collaborator supplies for each kind (R109). That the TX timeout is read from the CW timeout is DEDUCED
(log 6). -/
def legacyGetters : LegacyKind → List Getter
  | .fixed => []
  | .activeVfo => [.getActiveVfo]
  | .sideTone => [.getSideTone]
  | .txTimeout => [.getCwTimeout]
  | .cwSpeed => [.getCwDit]
  | .split => [.isSplitOn]
  | .activeMode => [.getMode]

/-- The program that calls the getters in a row and computes the pair from their answers. -/
def askAll : List Getter → (List Answer → Byte × Byte) → LegacyProgram
  | [], pair => .reply (pair []).1 (pair []).2
  | g :: gs, pair => .ask g fun a => askAll gs fun as => pair (a :: as)

/-- The program of an entry of one of the kinds of R109. -/
def legacyKindProgram (k : LegacyKind) (pair : List Answer → Byte × Byte) : LegacyProgram :=
  askAll (legacyGetters k) pair

/-- The selector of the active-VFO entry (R108, C7). -/
def legacyVfoSelector : Byte := 0x55

/-- The first byte of the active-VFO entry (R108): bits 7:1 fixed, bit 0 the VFO. -/
def legacyVfoByte (fixed : Byte) (v : Vfo) : Byte := (fixed &&& 0xFE) ||| (if v = .b then 1 else 0)

/-- A run of an entry's program: the getters called, and the pair. A getter answers what the radio holds (R42) and changes
nothing (R39). -/
def runProgram : LegacyProgram → Radio → List Getter × Byte × Byte
  | .reply r0 r1, _ => ([], r0, r1)
  | .ask g next, r =>
    let t := runProgram (next (getterAnswer g r)) r
    (g :: t.1, t.2)

/-- `LEGACY_TABLE(a1, a0, Radio)` (R106 to R110): the getters called and the pair. `a1` is the original `P2`, the key;
`a0` the original `P1`, which the entry may check. An address without an entry calls no getter (log 6). -/
def legacyTable (T : LegacyTable) (a1 a0 : Byte) (r : Radio) : List Getter × Byte × Byte :=
  if a1 = legacyVfoSelector then ([.getActiveVfo], legacyVfoByte T.vfoFixed r.vfo, T.vfoR1)
  else
    match T.entry a1 with
    | none => ([], 0x00, 0x00)
    | some e =>
      match e.expectP1 with
      | none => runProgram e.program r
      | some low => if a0 = low then runProgram e.program r else ([], 0x00, 0x00)

/-- `LegacyRead(buf)` (R106) for the sub-address `a0`, `a1` = the frame's `P1`, `P2`: one write of the two bytes
then in `buf[0]` and `buf[1]` (R111). -/
def legacyRead (P : Params) (a0 a1 : Byte) (s : State) : State :=
  let s := setP1P2 0x00 0x00 s
  let t := legacyTable P.legacy a1 a0 s.radio
  let s := setP1P2 t.2.1 t.2.2 (radioGets t.1 s)
  txWrite [s.buf.p1, s.buf.p2] s

/-- `RDLEGACY`, R100: the dispatcher adds no reply of its own. -/
def execRdlegacy (p1 p2 : Byte) (s : State) : Host.Outcome State Fault Refusal := .next (legacyRead params p1 p2 s)

end Sys2Proof.Machine
end

