-- ==== Sys2Proof/Machine/Status.lean ====
section
/-! DEFINITION. The status reads: R101, R102. -/

namespace Sys2Proof.Machine

/-- ReadRxStatus (R101). -/
def readRxStatus (P : Params) (s : State) : State := txWrite [rxStatusByte P.rx] s

/-- ReadTxStatus (R102). -/
def readTxStatus (P : Params) (s : State) : State :=
  txWrite [txStatusByte P.tx s.radio.transmitting s.radio.split]
    (radioGet .isSplitOn (radioGet .isTransmitting s))

/-- `RDRXS`, R101. -/
def execRdrxs (s : State) : Host.Outcome State Fault Refusal := .next (readRxStatus params s)

/-- `RDTXS`, R102. -/
def execRdtxs (s : State) : Host.Outcome State Fault Refusal := .next (readTxStatus params s)

end Sys2Proof.Machine
end

