-- ==== Sys2Proof/Machine/Transmit.lean ====
section
/-! DEFINITION. The transmit key: R97, R98. -/

namespace Sys2Proof.Machine

/-- PttOn (R97): busy when already transmitting, whoever started it. -/
def pttOn (P : Params) (s : State) : State :=
  refresh (if s.radio.transmitting then txWrite [replyBusy] (radioGet .isTransmitting s)
    else txWrite [replyAck] (radioCall P (.startTransmit P.txKindCat)
      (radioCall P (.setCatTx true) (radioGet .isTransmitting s))))

/-- PttOff (R98): the flag is cleared whether or not a transmission is stopped. -/
def pttOff (P : Params) (s : State) : State :=
  refresh (txWrite [replyAck] (radioCall P (.setCatTx false)
    (if s.radio.transmitting then radioCall P .stopTransmit (radioGet .isTransmitting s)
      else radioGet .isTransmitting s)))

/-- `PTTON`, R97. -/
def execPtton (s : State) : Host.Outcome State Fault Refusal := .next (pttOn params s)

/-- `PTTOFF`, R98. -/
def execPttoff (s : State) : Host.Outcome State Fault Refusal := .next (pttOff params s)

end Sys2Proof.Machine
end

