-- ==== Sys2Proof/Machine/Tuning.lean ====
section
/-! DEFINITION. The commands that set and read frequency, mode, VFO and split: R92 to R96, R99. -/

namespace Sys2Proof.Machine

/-- SetFrequency (R92). -/
def setFrequency (P : Params) (p1 p2 p3 p4 : Byte) (s : State) : State :=
  txWrite [replyAck] (refresh (radioCall P (.setFrequencyHz (decodeFrequencyBCD p1 p2 p3 p4)) s))

/-- SplitOn and SplitOff: no write and no refresh (R93, R94). -/
def setSplit (P : Params) (on : Bool) (s : State) : State := radioCall P (.setSplitOn on) s

/-- ReadFreqAndMode: one write of five bytes (R95). -/
def readFreqAndMode (s : State) : State :=
  txWrite (encodeFrequencyBCD s.radio.freqHz ++ [modeCode s.radio.mode])
    (radioGet .getMode (radioGet .getFrequencyHz s))

/-- The last effects of `MODE`: the frequency the collaborator holds by then is pushed again (R96, R141). -/
def repushFrequency (P : Params) (s : State) : State :=
  refresh (radioCall P (.setFrequencyHz s.radio.freqHz) (radioGet .getFrequencyHz s))

/-- OperatingMode (R96): the reply goes out before the frequency is pushed again. -/
def operatingMode (P : Params) (p1 : Byte) (s : State) : State :=
  repushFrequency P (txWrite [replyAck] (radioCall P (.setMode (selectMode P.selectors p1)) s))

/-- VfoToggle (R99). -/
def vfoToggle (P : Params) (s : State) : State :=
  refresh (txWrite [replyAck]
    (radioCall P (.setActiveVfo (otherVfo s.radio.vfo)) (radioGet .getActiveVfo s)))

/-- `SETFREQ`, R92. -/
def execSetfreq (p1 p2 p3 p4 : Byte) (s : State) : Host.Outcome State Fault Refusal :=
  .next (setFrequency params p1 p2 p3 p4 s)

/-- `SPLITON`, R93. -/
def execSpliton (s : State) : Host.Outcome State Fault Refusal := .next (setSplit params true s)

/-- `SPLITOFF`, R94. -/
def execSplitoff (s : State) : Host.Outcome State Fault Refusal := .next (setSplit params false s)

/-- `RDFREQ`, R95. -/
def execRdfreq (s : State) : Host.Outcome State Fault Refusal := .next (readFreqAndMode s)

/-- `MODE`, R96. -/
def execMode (p1 : Byte) (s : State) : Host.Outcome State Fault Refusal := .next (operatingMode params p1 s)

/-- `VFOTOG`, R99. -/
def execVfotog (s : State) : Host.Outcome State Fault Refusal := .next (vfoToggle params s)

end Sys2Proof.Machine
end

