-- ==== Sys2Proof/Machine/Dispatch.lean ====
section
/-! DEFINITION. The dispatcher's arms (R91): one direct call of its meaning per constructor. -/

namespace Sys2Proof.Machine

def exec (i : Instr) (s : State) : Host.Outcome State Fault Refusal :=
  match i with
  | .setfreq p1 p2 p3 p4 => Sys2Proof.Machine.execSetfreq p1 p2 p3 p4 s
  | .spliton _ _ _ _ => Sys2Proof.Machine.execSpliton s
  | .splitoff _ _ _ _ => Sys2Proof.Machine.execSplitoff s
  | .rdfreq _ _ _ _ => Sys2Proof.Machine.execRdfreq s
  | .mode p1 _ _ _ => Sys2Proof.Machine.execMode p1 s
  | .ptton _ _ _ _ => Sys2Proof.Machine.execPtton s
  | .pttoff _ _ _ _ => Sys2Proof.Machine.execPttoff s
  | .vfotog _ _ _ _ => Sys2Proof.Machine.execVfotog s
  | .rdlegacy p1 p2 _ _ => Sys2Proof.Machine.execRdlegacy p1 p2 s
  | .rdrxs _ _ _ _ => Sys2Proof.Machine.execRdrxs s
  | .rdtxs _ _ _ _ => Sys2Proof.Machine.execRdtxs s
  | .defaultOp _ _ _ _ _ => Sys2Proof.Machine.execDefaultOp s
  | .defaultX99 _ _ _ _ => Sys2Proof.Machine.execDefaultX99 s
  | .lockon _ _ _ _ => Sys2Proof.Machine.execLockon s
  | .lockoff _ _ _ _ => Sys2Proof.Machine.execLockoff s
  | .claron _ _ _ _ => Sys2Proof.Machine.execClaron s
  | .claroff _ _ _ _ => Sys2Proof.Machine.execClaroff s
  | .clarfreq _ _ _ _ => Sys2Proof.Machine.execClarfreq s
  | .rptdir _ _ _ _ => Sys2Proof.Machine.execRptdir s
  | .rptfreq _ _ _ _ => Sys2Proof.Machine.execRptfreq s
  | .tonemode _ _ _ _ => Sys2Proof.Machine.execTonemode s
  | .ctcss _ _ _ _ => Sys2Proof.Machine.execCtcss s
  | .dcs _ _ _ _ => Sys2Proof.Machine.execDcs s
  | .pwron _ _ _ _ => Sys2Proof.Machine.execPwron s
  | .pwroff _ _ _ _ => Sys2Proof.Machine.execPwroff s

end Sys2Proof.Machine
end

