-- ==== Sys2Proof/Machine/Framer.lean ====
section
/-! DEFINITION. The framer (41_framer.md): the environment's move before a tick, the empty tick, and the parts of a
byte tick, and the tick over any timeout and any dispatcher, as R82 puts it together (R30). -/

namespace Sys2Proof.Machine

/-- The environment's moves between two ticks (R128, R129). -/
def applyInput (x : TickInput) (s : State) : State :=
  let s := if x.reset then s.resetFramer else s
  { s with now := s.now + x.elapsed, rx := s.rx ++ x.arrivals, radio := x.radio.getD s.radio }

/-- The environment's next entry is taken and applied; after the last one it does nothing any more (log 12). -/
def deliver (s : State) : State :=
  match s.schedule with
  | [] => s
  | x :: rest => applyInput x { s with schedule := rest }

/-- "The deadline has passed when `now > deadline`", looked at only while armed (R83, R126). -/
def timedOut (s : State) : Bool := s.armed && decide (s.deadline < s.now)

/-- The end of a frame, dispatched or dropped: `fill <- 0`, `armed <- false`; `buf` is not cleared (R78, R81, R90). -/
def toIdle (s : State) : State := { s with fill := 0, armed := false }

/-- An empty tick: a timeout or nothing (R77, R78). -/
def emptyTick (s : State) : State := if timedOut s then toIdle s else s

/-- The first byte of a frame arms the deadline; later ones leave it alone (R79). -/
def armFirst (timeout : Nat) (s : State) : State :=
  if s.fill = 0 then { s with deadline := s.now + timeout, armed := true } else s

/-- The head `b` of the queue is taken and stored at the fill index (R80); `rest` stays in the queue. -/
def storeByte (b : Byte) (rest : List Byte) (s : State) : State :=
  { s with rx := rest, buf := s.buf.set s.fill b }

/-- `fill <- fill + 1` for a frame not yet complete (R80); only used below 4. -/
def advance (s : State) : State := { s with fill := s.fill + 1 }

/-- The part of a byte tick before completion is tested. -/
def takeByte (timeout : Nat) (b : Byte) (rest : List Byte) (s : State) : State :=
  storeByte b rest (armFirst timeout s)

/-- The model's mark that the frame in `buf` is handed to the dispatcher (log 15). -/
def beginDispatch (s : State) : State := emit (.dispatch s.buf) s

/-- After the dispatcher, back to `Idle` unconditionally (R81). -/
def finishDispatch : Host.Outcome State Fault Refusal → Host.Outcome State Fault Refusal
  | .next s => .next (toIdle s)
  | .fault r => .fault r
  | .refused r => .refused r

/-- A dispatcher: what the handed-over frame does. -/
abbrev Dispatcher := Frame → State → Host.Outcome State Fault Refusal

/-- `Dispatch(buf)` and the return to `Idle` (R81, R91). -/
def completeBy (dispatch : Dispatcher) (s : State) : Host.Outcome State Fault Refusal :=
  finishDispatch (dispatch s.buf (beginDispatch s))

/-- `Tick()` (R82). -/
def tickBy (timeout : Nat) (dispatch : Dispatcher) (s : State) : Host.Outcome State Fault Refusal :=
  match s.rx with
  | [] => .next (emptyTick s)
  | b :: rest =>
    if s.fill = 4 then completeBy dispatch (takeByte timeout b rest s)
    else .next (advance (takeByte timeout b rest s))

/-- `s` with the frame `f` placed so that the next step takes its last byte and dispatches it: the four parameter bytes
are in `buf`, the framer is `Filling` as if they had been taken at the present time, and the opcode byte is the
next in the queue. A reset that the schedule holds for the very next tick is struck out (log 2). -/
def placeFrame (f : Frame) (s : State) : State :=
  { s with
    buf := { f with cmd := s.buf.cmd }
    fill := 4
    armed := true
    deadline := s.now + timeoutMs
    rx := f.cmd :: s.rx
    schedule :=
      match s.schedule with
      | [] => []
      | x :: rest => { x with reset := false } :: rest }

end Sys2Proof.Machine
end

