-- ==== Sys2Proof/Machine/Step.lean ====
section
/-! DEFINITION. One step is the environment's move and then one tick (R8, R76, R82), with the parameters of this model. -/

namespace Sys2Proof.Machine

/-- `Dispatch` (R91). -/
def dispatch : Dispatcher := fun f s => exec (decode f) s

/-- `Tick()` (R82). -/
def tick (s : State) : Host.Outcome State Fault Refusal := tickBy timeoutMs dispatch s

/-- One step of the machine. -/
def step (s : State) : Host.Outcome State Fault Refusal := tick (deliver s)

/-- `s` with the instruction of a table word placed where the next step fetches it (log 1, log 2). -/
def State.withFetchWord (s : State) (nbits w : Nat) : State := placeFrame (frameOfTableWord nbits w) s

end Sys2Proof.Machine
end

