-- ==== Sys2Proof/Machine/Parametric.lean ====
section
/-! DEFINITION. The block with its parameters as arguments of the step function (R7, R30), over the same operations as the
machine of the host's interface, which is the instance at `params`. -/

namespace Sys2Proof.Machine

/-- What a command does (R92 to R103) under the parameters `P`. -/
def execWith (P : Params) (i : Instr) (s : State) : Host.Outcome State Fault Refusal :=
  match i with
  | .setfreq p1 p2 p3 p4 => .next (setFrequency P p1 p2 p3 p4 s)
  | .spliton _ _ _ _ => .next (setSplit P true s)
  | .splitoff _ _ _ _ => .next (setSplit P false s)
  | .rdfreq _ _ _ _ => .next (readFreqAndMode s)
  | .mode p1 _ _ _ => .next (operatingMode P p1 s)
  | .ptton _ _ _ _ => .next (pttOn P s)
  | .pttoff _ _ _ _ => .next (pttOff P s)
  | .vfotog _ _ _ _ => .next (vfoToggle P s)
  | .rdlegacy p1 p2 _ _ => .next (legacyRead P p1 p2 s)
  | .rdrxs _ _ _ _ => .next (readRxStatus P s)
  | .rdtxs _ _ _ _ => .next (readTxStatus P s)
  | .defaultOp _ _ _ _ _ => .next (acknowledge s)
  | .defaultX99 _ _ _ _ => .next (acknowledge s)
  | .lockon _ _ _ _ => .next (acknowledge s)
  | .lockoff _ _ _ _ => .next (acknowledge s)
  | .claron _ _ _ _ => .next (acknowledge s)
  | .claroff _ _ _ _ => .next (acknowledge s)
  | .clarfreq _ _ _ _ => .next (acknowledge s)
  | .rptdir _ _ _ _ => .next (acknowledge s)
  | .rptfreq _ _ _ _ => .next (acknowledge s)
  | .tonemode _ _ _ _ => .next (acknowledge s)
  | .ctcss _ _ _ _ => .next (acknowledge s)
  | .dcs _ _ _ _ => .next (acknowledge s)
  | .pwron _ _ _ _ => .next (acknowledge s)
  | .pwroff _ _ _ _ => .next (acknowledge s)

/-- `Dispatch` (R91) under the parameters `P`: decoding is by their opcode values. -/
def dispatchWith (P : Params) : Dispatcher := fun f s => execWith P (decodeWith P.opcodes f) s

/-- `Tick()` (R82) under the parameters `P`. -/
def tickWith (P : Params) (s : State) : Host.Outcome State Fault Refusal := tickBy P.timeoutMs (dispatchWith P) s

/-- One step under the parameters `P`. The values that open every tick, `Now()`, the bytes and the radio state, are inputs
(R30), which `deliver` takes from the schedule. -/
def stepWith (P : Params) (s : State) : Host.Outcome State Fault Refusal := tickWith P (deliver s)

/-- The machine under the parameters `P`. -/
def coreWith (P : Params) : Host.Core where
  State   := State
  Fault   := Fault
  Refusal := Refusal
  step    := stepWith P
  reset   := State.reset

end Sys2Proof.Machine
end

