-- ==== Sys2Proof/Safety.lean ====
section
/-! DEFINITION. The terms claims are stated in: the framer's states (R19), what a trace says, the table of effects of
R104, the invariant of the machine, and framing by counting (R38). -/

namespace Sys2Proof.Machine

/-- The states of the framer's state machine (R19). -/
inductive Phase where
  | idle
  | filling
  | complete
  | timedOut
  deriving DecidableEq, Repr

/-- The framer between two ticks: `Idle` or `Filling` (R19). -/
def State.phase (s : State) : Phase := if s.fill = 0 then .idle else .filling

/-- The state the framer passes through inside a tick that begins, after the environment's move, in `s` (R19). -/
def tickPhase (s : State) : Phase :=
  match s.rx with
  | [] => if timedOut s then .timedOut else s.phase
  | _ :: _ => if s.fill = 4 then .complete else .filling

/-- The frame of a dispatch mark. -/
def eventFrame : Event → Option Frame
  | .dispatch f => some f
  | .get _ | .call _ | .refresh | .write _ => none

/-- The radio call of an event. -/
def eventCall : Event → Option RadioCall
  | .call c => some c
  | .get _ | .refresh | .write _ | .dispatch _ => none

/-- Is the event a write to the transport? -/
def isWrite : Event → Bool
  | .write _ => true
  | .get _ | .call _ | .refresh | .dispatch _ => false

/-- The frames dispatched so far, oldest first. -/
def State.dispatched (s : State) : List Frame := s.trace.filterMap eventFrame

/-- The radio after the calls of a list of events, in order. -/
def replayRadio (P : Params) (es : List Event) (r : Radio) : Radio :=
  (es.filterMap eventCall).foldl (fun r c => radioAfter P c r) r

/-- The reference collaborator of decision D18, a plain store: each setter stores its argument. It stands in
hypotheses only, for the examples of the command rules; the model does not build it in (R122; log 8). -/
def referenceReact (c : RadioCall) (r : Radio) : Radio :=
  match c with
  | .setFrequencyHz f => { r with freqHz := f }
  | .setMode m => { r with mode := m }
  | .setActiveVfo v => { r with vfo := v }
  | .setSplitOn on => { r with split := on }
  | .startTransmit _ => { r with transmitting := true }
  | .stopTransmit => { r with transmitting := false }
  | .setCatTx on => { r with catTx := on }

/-- The reply of each command in bytes (R50, R55, R104). -/
def replyLength : Instr → Nat
  | .spliton _ _ _ _ | .splitoff _ _ _ _ => 0
  | .rdfreq _ _ _ _ => 5
  | .rdlegacy _ _ _ _ => 2
  | .setfreq _ _ _ _ | .mode _ _ _ _ | .ptton _ _ _ _ | .pttoff _ _ _ _ | .vfotog _ _ _ _
  | .rdrxs _ _ _ _ | .rdtxs _ _ _ _ | .defaultOp _ _ _ _ _ | .defaultX99 _ _ _ _ | .lockon _ _ _ _
  | .lockoff _ _ _ _ | .claron _ _ _ _ | .claroff _ _ _ _ | .clarfreq _ _ _ _ | .rptdir _ _ _ _
  | .rptfreq _ _ _ _ | .tonemode _ _ _ _ | .ctcss _ _ _ _ | .dcs _ _ _ _ | .pwron _ _ _ _
  | .pwroff _ _ _ _ => 1

/-- Does the command refresh the display (R104)? -/
def refreshes : Instr → Bool
  | .setfreq _ _ _ _ | .mode _ _ _ _ | .ptton _ _ _ _ | .pttoff _ _ _ _ | .vfotog _ _ _ _ => true
  | .spliton _ _ _ _ | .splitoff _ _ _ _ | .rdfreq _ _ _ _ | .rdlegacy _ _ _ _ | .rdrxs _ _ _ _
  | .rdtxs _ _ _ _ | .defaultOp _ _ _ _ _ | .defaultX99 _ _ _ _ | .lockon _ _ _ _ | .lockoff _ _ _ _
  | .claron _ _ _ _ | .claroff _ _ _ _ | .clarfreq _ _ _ _ | .rptdir _ _ _ _ | .rptfreq _ _ _ _
  | .tonemode _ _ _ _ | .ctcss _ _ _ _ | .dcs _ _ _ _ | .pwron _ _ _ _ | .pwroff _ _ _ _ => false

/-- Is the row `DEFAULT` or one of its instances (R52, R103)? -/
def isDefaultRow : Instr → Bool
  | .defaultOp _ _ _ _ _ | .defaultX99 _ _ _ _ | .lockon _ _ _ _ | .lockoff _ _ _ _ | .claron _ _ _ _
  | .claroff _ _ _ _ | .clarfreq _ _ _ _ | .rptdir _ _ _ _ | .rptfreq _ _ _ _ | .tonemode _ _ _ _
  | .ctcss _ _ _ _ | .dcs _ _ _ _ | .pwron _ _ _ _ | .pwroff _ _ _ _ => true
  | .setfreq _ _ _ _ | .spliton _ _ _ _ | .splitoff _ _ _ _ | .rdfreq _ _ _ _ | .mode _ _ _ _
  | .ptton _ _ _ _ | .pttoff _ _ _ _ | .vfotog _ _ _ _ | .rdlegacy _ _ _ _ | .rdrxs _ _ _ _
  | .rdtxs _ _ _ _ => false

/-- Does the command only read radio state, or not touch it (R104)? -/
def keepsRadio (i : Instr) : Bool :=
  isDefaultRow i ||
    match i with
    | .rdfreq _ _ _ _ | .rdlegacy _ _ _ _ | .rdrxs _ _ _ _ | .rdtxs _ _ _ _ => true
    | _ => false

/-- The collaborator calls and writes of every command, in order, with their values: the rows of R104 for an instruction that
finds the radio `r`. It reads all getters of one command from what the block's own calls make of that radio (log 19). -/
def summaryEvents (P : Params) (i : Instr) (r : Radio) : List Event :=
  match i with
  | .setfreq p1 p2 p3 p4 =>
    [.call (.setFrequencyHz (decodeFrequencyBCD p1 p2 p3 p4)), .refresh, .write [0x00]]
  | .spliton _ _ _ _ => [.call (.setSplitOn true)]
  | .splitoff _ _ _ _ => [.call (.setSplitOn false)]
  | .rdfreq _ _ _ _ =>
    [.get .getFrequencyHz, .get .getMode,
      .write (encodeFrequencyBCD r.freqHz ++ [if r.mode = .usb then 0x01 else 0x00])]
  | .mode p1 _ _ _ =>
    let m : Mode := if p1 = P.selectors.lsb0 ∨ p1 = P.selectors.lsb1 then .lsb else .usb
    [.call (.setMode m), .write [0x00], .get .getFrequencyHz,
      .call (.setFrequencyHz (P.react (.setMode m) r).freqHz), .refresh]
  | .ptton _ _ _ _ =>
    if r.transmitting then [.get .isTransmitting, .write [0xF0], .refresh]
    else [.get .isTransmitting, .call (.setCatTx true), .call (.startTransmit P.txKindCat), .write [0x00], .refresh]
  | .pttoff _ _ _ _ =>
    if r.transmitting then
      [.get .isTransmitting, .call .stopTransmit, .call (.setCatTx false), .write [0x00], .refresh]
    else [.get .isTransmitting, .call (.setCatTx false), .write [0x00], .refresh]
  | .vfotog _ _ _ _ =>
    [.get .getActiveVfo, .call (.setActiveVfo (if r.vfo = .a then .b else .a)), .write [0x00], .refresh]
  | .rdlegacy p1 p2 _ _ =>
    let t := legacyTable P.legacy p2 p1 r
    t.1.map .get ++ [.write [t.2.1, t.2.2]]
  | .rdrxs _ _ _ _ => [.write [buildRxStatus P.rx 9 true false false false]]
  | .rdtxs _ _ _ _ =>
    [.get .isTransmitting, .get .isSplitOn,
      .write [buildTxStatus P.tx 0xF (!r.transmitting) (!r.split) false false]]
  | .defaultOp _ _ _ _ _ | .defaultX99 _ _ _ _ | .lockon _ _ _ _ | .lockoff _ _ _ _ | .claron _ _ _ _
  | .claroff _ _ _ _ | .clarfreq _ _ _ _ | .rptdir _ _ _ _ | .rptfreq _ _ _ _ | .tonemode _ _ _ _
  | .ctcss _ _ _ _ | .dcs _ _ _ _ | .pwron _ _ _ _ | .pwroff _ _ _ _ => [.write [0x00]]

/-- The argument of a `setCatTx` call (R28). -/
def eventCatTx : Event → Option Bool
  | .call (.setCatTx on) => some on
  | .call _ | .get _ | .refresh | .write _ | .dispatch _ => none

/-- What an event of a trace may be: a write has one of the lengths of R55, `setMode` is given LSB or USB only
(R122), `startTransmit` is given `TX_KIND_CAT` only (R97). -/
def eventAllowed (P : Params) : Event → Prop
  | .write bs => bs.length = 1 ∨ bs.length = 2 ∨ bs.length = 5
  | .call (.setMode m) => m ≠ .other
  | .call (.startTransmit k) => k = P.txKindCat
  | .call _ | .get _ | .refresh | .dispatch _ => True

/-- The invariant of the machine between ticks: `armed` says that the framer is filling (R18), an armed deadline is
at most the timeout away (R79), the trace holds allowed events only, and there is at most one write a dispatch
(R33). -/
structure Inv (P : Params) (s : State) : Prop where
  armed_iff_filling : s.armed = decide (s.fill ≠ 0)
  deadline_near : s.armed = true → s.deadline ≤ s.now + P.timeoutMs
  events_allowed : ∀ e ∈ s.trace, eventAllowed P e
  one_write_a_dispatch : s.trace.countP isWrite ≤ s.dispatched.length

/-- The frames a byte sequence is cut into by counting alone (R38). -/
def framesOf : List Byte → List Frame
  | b0 :: b1 :: b2 :: b3 :: b4 :: rest => ⟨b0, b1, b2, b3, b4⟩ :: framesOf rest
  | _ => []

/-- The environment resets the framer at no coming tick. -/
def NoReset (s : State) : Prop := ∀ x ∈ s.schedule, x.reset = false

end Sys2Proof.Machine
end

