-- ==== Sys2Proof/Certificates/Slice0/Obligations.lean ====
section
/-! DEFINITION. The statements for the provers. Where a statement speaks of what the tick does, `deliver s` is the state
after the environment's move and before the tick reads anything. -/

open Sys2Proof Sys2Proof.Machine

/-! ### Encoding -/

/-- Words of eight rows of the opcode table, written out (P1 first), decode to their instructions. The opcode values but
0xBB and 0x99 are the model's presumption (log 3, log 17), and which bits of a table word are which byte, in the last
clause, is the model's inference (log 1). -/
def Obligations.TableWordsDecodeToTheirRows : Prop :=
  decode ⟨0x01, 0x42, 0x34, 0x56, 0x01⟩ = .setfreq 0x01 0x42 0x34 0x56 ∧
  decode ⟨0x00, 0x55, 0x00, 0x00, 0xBB⟩ = .rdlegacy 0x00 0x55 0x00 0x00 ∧
  decode ⟨0x03, 0x00, 0x00, 0x00, 0x07⟩ = .mode 0x03 0x00 0x00 0x00 ∧
  decode ⟨0x00, 0x00, 0x00, 0x00, 0x88⟩ = .pttoff 0x00 0x00 0x00 0x00 ∧
  decode ⟨0x00, 0x00, 0x00, 0x00, 0xF7⟩ = .rdtxs 0x00 0x00 0x00 0x00 ∧
  decode ⟨0x12, 0x34, 0x56, 0x78, 0x99⟩ = .defaultX99 0x12 0x34 0x56 0x78 ∧
  decode ⟨0x14, 0x20, 0x74, 0x08, 0x70⟩ = .defaultOp 0x14 0x20 0x74 0x08 0x70 ∧
  decodeTableWord 40 0x01423456E7 = some (.rdrxs 0x01 0x42 0x34 0x56)

/-- R51: "The eleven values ... are pairwise different" and none is 0x99; R56 and R59 constrain the positions and
selectors. The model's own choices of values (log 3, log 4, log 5) meet all of it. -/
def Obligations.ChosenParametersMeetTheConstraints : Prop :=
  params.opcodes = defaultOpcodes ∧ params.opcodes.Valid ∧ params.rx.Valid ∧ params.tx.Valid ∧ params.selectors.Valid

/-- For every choice of the opcode parameters that R51 allows, no bit of an instruction is lost on the way
through its frame. -/
def Obligations.DecodeOfEncodeIsTheInstruction : Prop :=
  ∀ (m : OpcodeMap), m.Valid → ∀ i : Instr, i.wellFormedFor m = true → decodeWith m (encodeWith m i) = i

/-- Every frame is the frame of the instruction it decodes to, which is well formed: decoding is total and no
two frames are one instruction. -/
def Obligations.EncodeOfDecodeIsTheFrame : Prop :=
  ∀ (m : OpcodeMap) (f : Frame), encodeWith m (decodeWith m f) = f ∧ (decodeWith m f).wellFormedFor m = true

/-- R91, the eleven handled values, for every choice R51 allows: each opcode parameter selects its command. -/
def Obligations.EachHandledOpcodeSelectsItsCommand : Prop :=
  ∀ (m : OpcodeMap), m.Valid → ∀ p1 p2 p3 p4 : Byte,
    decodeWith m ⟨p1, p2, p3, p4, m.setFreq⟩ = .setfreq p1 p2 p3 p4 ∧
    decodeWith m ⟨p1, p2, p3, p4, m.splitOn⟩ = .spliton p1 p2 p3 p4 ∧
    decodeWith m ⟨p1, p2, p3, p4, m.splitOff⟩ = .splitoff p1 p2 p3 p4 ∧
    decodeWith m ⟨p1, p2, p3, p4, m.readFreqMode⟩ = .rdfreq p1 p2 p3 p4 ∧
    decodeWith m ⟨p1, p2, p3, p4, m.mode⟩ = .mode p1 p2 p3 p4 ∧
    decodeWith m ⟨p1, p2, p3, p4, m.pttOn⟩ = .ptton p1 p2 p3 p4 ∧
    decodeWith m ⟨p1, p2, p3, p4, m.pttOff⟩ = .pttoff p1 p2 p3 p4 ∧
    decodeWith m ⟨p1, p2, p3, p4, m.vfoToggle⟩ = .vfotog p1 p2 p3 p4 ∧
    decodeWith m ⟨p1, p2, p3, p4, 0xBB⟩ = .rdlegacy p1 p2 p3 p4 ∧
    decodeWith m ⟨p1, p2, p3, p4, m.readRxStatus⟩ = .rdrxs p1 p2 p3 p4 ∧
    decodeWith m ⟨p1, p2, p3, p4, m.readTxStatus⟩ = .rdtxs p1 p2 p3 p4

/-- R52, R103: a frame whose opcode is none of the eleven handled values is acknowledged with one zero byte and has no
other effect, for every opcode map; the source's example 0x99 is such a value in every map R51 allows. -/
def Obligations.EveryOtherOpcodeIsAcknowledged : Prop :=
  (∀ (m : OpcodeMap) (f : Frame) (s : State), f.cmd ∉ m.handled →
    exec (decodeWith m f) s = .next { s with trace := s.trace ++ [.write [0x00]] }) ∧
  ∀ m : OpcodeMap, m.Valid → (0x99 : Byte) ∉ m.handled

/-- R49 (the spec's derivation), for every opcode map R51 allows: a parameter byte a command ignores changes nothing; `SETFREQ`
reads all four, `MODE` reads `P1`, `RDLEGACY` reads `P1` and `P2`. -/
def Obligations.IgnoredParametersChangeNothing : Prop :=
  ∀ m : OpcodeMap, m.Valid → ∀ (p1 p2 p3 p4 q1 q2 q3 q4 cmd : Byte) (s : State),
    (cmd ≠ m.setFreq → cmd ≠ m.mode → cmd ≠ opLegacy →
      exec (decodeWith m ⟨p1, p2, p3, p4, cmd⟩) s = exec (decodeWith m ⟨q1, q2, q3, q4, cmd⟩) s) ∧
    exec (decodeWith m ⟨p1, p2, p3, p4, m.mode⟩) s = exec (decodeWith m ⟨p1, q2, q3, q4, m.mode⟩) s ∧
    exec (decodeWith m ⟨p1, p2, p3, p4, opLegacy⟩) s = exec (decodeWith m ⟨p1, p2, q3, q4, opLegacy⟩) s

/-! ### The codec -/

/-- R64: the digits, least significant first, each 0 to 9; positions past the most significant digit give 0. That the digits at
or above `count` are dropped, so that the sequence stands for `n mod 10^count`, is the spec's own derivation. -/
def Obligations.DigitsOfANumber : Prop :=
  (∀ n count : Nat, (digitsOf n count).length = count ∧
    (∀ i, i < count → (digitsOf n count)[i]? = some (n / 10 ^ i % 10)) ∧
    (∀ d ∈ digitsOf n count, d ≤ 9) ∧
    Nat.ofDigits 10 (digitsOf n count) = n % 10 ^ count ∧
    (∀ i, i < count → n < 10 ^ i → (digitsOf n count)[i]? = some 0)) ∧
  digitsOf 14234560 9 = [0, 6, 5, 4, 3, 2, 4, 1, 0]

/-- R65: byte `k` packs the digit pair of R65, high digit in the high nibble; every nibble is a decimal digit; the rule's five
examples. That digit 0 and everything at or above 10^9 Hz are lost is the spec's own derivation. -/
def Obligations.EncodeFrequencyPacksDigitPairs : Prop :=
  (∀ f : Freq, ∃ b0 b1 b2 b3 : Byte, encodeFrequencyBCD f = [b0, b1, b2, b3] ∧
    (getHighNibble b0).toNat = f.toNat / 10 ^ 8 % 10 ∧ (getLowNibble b0).toNat = f.toNat / 10 ^ 7 % 10 ∧
    (getHighNibble b1).toNat = f.toNat / 10 ^ 6 % 10 ∧ (getLowNibble b1).toNat = f.toNat / 10 ^ 5 % 10 ∧
    (getHighNibble b2).toNat = f.toNat / 10 ^ 4 % 10 ∧ (getLowNibble b2).toNat = f.toNat / 10 ^ 3 % 10 ∧
    (getHighNibble b3).toNat = f.toNat / 10 ^ 2 % 10 ∧ (getLowNibble b3).toNat = f.toNat / 10 ^ 1 % 10) ∧
  (∀ f g : Freq, f.toNat % 10 ^ 9 / 10 = g.toNat % 10 ^ 9 / 10 →
    encodeFrequencyBCD f = encodeFrequencyBCD g) ∧
  encodeFrequencyBCD 0 = [0x00, 0x00, 0x00, 0x00] ∧
  encodeFrequencyBCD 999999999 = [0x99, 0x99, 0x99, 0x99] ∧
  encodeFrequencyBCD 1000000000 = [0x00, 0x00, 0x00, 0x00] ∧
  encodeFrequencyBCD 14234560 = [0x01, 0x42, 0x34, 0x56] ∧
  encodeFrequencyBCD 7074000 = [0x00, 0x70, 0x74, 0x00]

/-- R66: the value is ten times the sum of the nibbles at their decimal places, and a multiple of 10; the rule's examples. That
nibbles above 9 count at their numeric value, the bound 1_666_666_650 and that no step overflows are the spec's own
derivation. -/
def Obligations.DecodeFrequencyAddsUpNibbles : Prop :=
  (∀ b0 b1 b2 b3 : Byte,
    (decodeFrequencyBCD b0 b1 b2 b3).toNat =
      10 * ((10 * (b0.toNat / 16) + b0.toNat % 16) * 1000000 + (10 * (b1.toNat / 16) + b1.toNat % 16) * 10000 +
        (10 * (b2.toNat / 16) + b2.toNat % 16) * 100 + (10 * (b3.toNat / 16) + b3.toNat % 16)) ∧
    (decodeFrequencyBCD b0 b1 b2 b3).toNat % 10 = 0 ∧
    (decodeFrequencyBCD b0 b1 b2 b3).toNat ≤ 1666666650) ∧
  decodeFrequencyBCD 0xFF 0xFF 0xFF 0xFF = 1666666650 ∧
  decodeFrequencyBCD 0x0A 0x00 0x00 0x00 = 100000000 ∧
  decodeFrequencyBCD 0x10 0x00 0x00 0x00 = 100000000 ∧
  decodeFrequencyBCD 0x01 0x42 0x34 0x56 = 14234560

/-- R67: the three round-trip laws: decoding an encoded frequency gives `f` itself on multiples of 10 up to 999_999_990 and
`f - f mod 10` below 10^9. The exact form `((f mod 10^9) div 10) * 10`, the range of the second law, and the third law, that
encoding a decoded field gives it back when every nibble is decimal and not for `0A 00 00 00`, are the spec's own
derivation. -/
def Obligations.FrequencyRoundTrips : Prop :=
  (∀ f : Freq, ∃ b0 b1 b2 b3 : Byte, encodeFrequencyBCD f = [b0, b1, b2, b3] ∧
    (decodeFrequencyBCD b0 b1 b2 b3).toNat = f.toNat % 10 ^ 9 / 10 * 10 ∧
    (f.toNat ≤ 999999990 → f.toNat % 10 = 0 → decodeFrequencyBCD b0 b1 b2 b3 = f) ∧
    (f.toNat < 10 ^ 9 → (decodeFrequencyBCD b0 b1 b2 b3).toNat = f.toNat - f.toNat % 10)) ∧
  (∀ b0 b1 b2 b3 : Byte,
    (∀ b ∈ [b0, b1, b2, b3], (getHighNibble b).toNat ≤ 9 ∧ (getLowNibble b).toNat ≤ 9) →
    encodeFrequencyBCD (decodeFrequencyBCD b0 b1 b2 b3) = [b0, b1, b2, b3]) ∧
  encodeFrequencyBCD (decodeFrequencyBCD 0x0A 0x00 0x00 0x00) = [0x10, 0x00, 0x00, 0x00]

/-- R68 to R71: a nibble getter reads its nibble; a nibble setter writes the low four bits of the value to its nibble
and leaves the other one; the rules' examples. That a value above 15 is masked is the spec's decision D16 (log 14), and the
laws of getters over setters and of packing are the spec's own derivation. -/
def Obligations.NibbleHelpersKeepTheOtherNibble : Prop :=
  (∀ b v : Byte,
    (getHighNibble b).toNat = b.toNat / 16 ∧ (getLowNibble b).toNat = b.toNat % 16 ∧
    getHighNibble (setHighNibble b v) = v &&& 0x0F ∧ getLowNibble (setHighNibble b v) = getLowNibble b ∧
    getLowNibble (setLowNibble b v) = v &&& 0x0F ∧ getHighNibble (setLowNibble b v) = getHighNibble b) ∧
  (∀ hi lo : Byte, hi.toNat ≤ 15 → lo.toNat ≤ 15 →
    setHighNibble (setLowNibble 0 lo) hi = (hi <<< 4) ||| lo) ∧
  getHighNibble 0x42 = 4 ∧ getLowNibble 0x42 = 2 ∧ setHighNibble 0x42 0x7 = 0x72 ∧ setLowNibble 0x42 0x9 = 0x49

/-- R72, R56: for every legal choice of positions and all operands, the low nibble is the meter's and each flag stands
at its own position. -/
def Obligations.RxStatusHoldsMeterAndFlags : Prop :=
  ∀ l : RxLayout, l.Valid → ∀ (meter : Byte) (discOff sql code dummy : Bool),
    getLowNibble (buildRxStatus l meter discOff sql code dummy) = meter &&& 0x0F ∧
    (buildRxStatus l meter discOff sql code dummy).getLsbD l.discOff = discOff ∧
    (buildRxStatus l meter discOff sql code dummy).getLsbD l.sql = sql ∧
    (buildRxStatus l meter discOff sql code dummy).getLsbD l.code = code ∧
    (buildRxStatus l meter discOff sql code dummy).getLsbD l.dummy = dummy

/-- R57: whatever the positions, the byte of `RDRXS` has low nibble 9 and exactly one flag bit set, the
discriminator's, so it is one of 0x19, 0x29, 0x49, 0x89 (the spec's derivation). -/
def Obligations.RxStatusReplyHasOneFlag : Prop :=
  ∀ l : RxLayout, l.Valid →
    getLowNibble (rxStatusByte l) = 9 ∧
    (∀ k : Nat, 4 ≤ k → k ≤ 7 → ((rxStatusByte l).getLsbD k = true ↔ k = l.discOff)) ∧
    (rxStatusByte l = 0x19 ∨ rxStatusByte l = 0x29 ∨ rxStatusByte l = 0x49 ∨ rxStatusByte l = 0x89)

/-- R73, R56: the same for the TX status register, and the block's call of it: low nibble 0xF, each named flag 1 when
its thing is off, the two others 0; `0F` when transmitting with split on, whatever the positions. -/
def Obligations.TxStatusHoldsPowerAndFlags : Prop :=
  ∀ l : TxLayout, l.Valid →
    (∀ (power : Byte) (pttOff splitOff hiSwr dummy : Bool),
      getLowNibble (buildTxStatus l power pttOff splitOff hiSwr dummy) = power &&& 0x0F ∧
      (buildTxStatus l power pttOff splitOff hiSwr dummy).getLsbD l.pttOff = pttOff ∧
      (buildTxStatus l power pttOff splitOff hiSwr dummy).getLsbD l.splitOff = splitOff ∧
      (buildTxStatus l power pttOff splitOff hiSwr dummy).getLsbD l.hiSwr = hiSwr ∧
      (buildTxStatus l power pttOff splitOff hiSwr dummy).getLsbD l.dummy = dummy) ∧
    (∀ transmitting split : Bool,
      getLowNibble (txStatusByte l transmitting split) = 0x0F ∧
      (txStatusByte l transmitting split).getLsbD l.pttOff = !transmitting ∧
      (txStatusByte l transmitting split).getLsbD l.splitOff = !split ∧
      (txStatusByte l transmitting split).getLsbD l.hiSwr = false ∧
      (txStatusByte l transmitting split).getLsbD l.dummy = false) ∧
    txStatusByte l true true = 0x0F

/-! ### Reset and the environment -/

/-- R29, R129: reset puts the framer in `Idle` with the deadline cleared, and touches nothing else: nothing written, called
or taken, the transport not flushed. (`buf` and `deadline` are the model's choice, log 10, and not stated.) -/
def Obligations.ResetPutsTheFramerInIdle : Prop :=
  State.reset.phase = .idle ∧ State.reset.fill = 0 ∧ State.reset.armed = false ∧
  ∀ s : State, s.resetFramer.phase = .idle ∧ s.resetFramer.fill = 0 ∧ s.resetFramer.armed = false ∧
    s.resetFramer.trace = s.trace ∧ s.resetFramer.rx = s.rx ∧ s.resetFramer.radio = s.radio ∧
    s.resetFramer.now = s.now ∧ s.resetFramer.schedule = s.schedule

/-- R128, R121 (c): between two ticks the environment, unless it resets the framer, leaves `buf`, `fill`, `deadline`
and `armed` alone, takes no byte out of the queue, makes no entry in the trace, and time does not go back. How the
moves are listed is the model's choice (log 12). -/
def Obligations.EnvironmentLeavesTheFramerAlone : Prop :=
  ∀ s : State, (deliver s).trace = s.trace ∧ s.now ≤ (deliver s).now ∧
    (∃ bs, (deliver s).rx = s.rx ++ bs) ∧
    ((∀ x ∈ s.schedule.head?, x.reset = false) →
      (deliver s).buf = s.buf ∧ (deliver s).fill = s.fill ∧ (deliver s).deadline = s.deadline ∧
      (deliver s).armed = s.armed)

/-- A reset in the middle of a frame drops it without a reply: with no byte waiting, the step leaves the framer in `Idle`
and the trace as it was (R129; the schedule is the model's, log 12). -/
def Obligations.ResetMidFrameDropsItSilently : Prop :=
  ∀ (s : State) (x : TickInput) (rest : List TickInput),
    s.schedule = x :: rest → x.reset = true → s.rx = [] → x.arrivals = [] →
    ∃ t, step s = .next t ∧ t.fill = 0 ∧ t.armed = false ∧ t.trace = s.trace ∧ t.rx = []

/-! ### The framer -/

/-- R77: an empty tick with nothing to drop changes nothing. -/
def Obligations.EmptyTickBeforeTheDeadlineDoesNothing : Prop :=
  ∀ s : State, (deliver s).rx = [] →
    ((deliver s).armed = false ∨ (deliver s).now ≤ (deliver s).deadline) → step s = .next (deliver s)

/-- R78: an empty tick after an armed deadline drops the partial frame: `fill` 0, `armed` false, nothing else. -/
def Obligations.EmptyTickAfterTheDeadlineDropsTheFrame : Prop :=
  ∀ s : State, (deliver s).rx = [] → (deliver s).armed = true → (deliver s).deadline < (deliver s).now →
    step s = .next { deliver s with fill := 0, armed := false }

/-- R79, R80: a byte tick takes the head of the queue and stores it at the fill index, whatever the time. The first byte of
a frame (fill 0) arms the deadline to now + 500; the later ones do not touch `deadline` or `armed` before the frame is
complete (the fifth byte's other effects: `FifthByteRunsTheDecodedInstruction`). -/
def Obligations.ByteTickStoresTheByte : Prop :=
  ∀ (s : State) (b : Byte) (rest : List Byte), (deliver s).rx = b :: rest →
    ((deliver s).fill = 0 → step s = .next
      { deliver s with
        rx := rest
        buf := { (deliver s).buf with p1 := b }
        fill := 1
        deadline := (deliver s).now + 500
        armed := true }) ∧
    ((deliver s).fill = 1 → step s = .next
      { deliver s with rx := rest, buf := { (deliver s).buf with p2 := b }, fill := 2 }) ∧
    ((deliver s).fill = 2 → step s = .next
      { deliver s with rx := rest, buf := { (deliver s).buf with p3 := b }, fill := 3 }) ∧
    ((deliver s).fill = 3 → step s = .next
      { deliver s with rx := rest, buf := { (deliver s).buf with p4 := b }, fill := 4 }) ∧
    ((deliver s).fill = 4 → ∃ t, step s = .next t ∧ t.rx = rest ∧ t.buf.cmd = b ∧
      t.deadline = (deliver s).deadline)

/-- R81: the fifth byte completes the frame: the instruction the frame decodes to is executed, from the state with the byte
stored and the dispatch marked in the trace (the mark is the model's, log 15), and then the framer is in `Idle`
whatever the instruction did. -/
def Obligations.FifthByteRunsTheDecodedInstruction : Prop :=
  ∀ (s : State) (b : Byte) (rest : List Byte), (deliver s).rx = b :: rest → (deliver s).fill = 4 →
    ∀ f : Frame, f = { (deliver s).buf with cmd := b } →
    ∀ t : State,
      exec (decode f)
        { deliver s with rx := rest, buf := f, trace := (deliver s).trace ++ [.dispatch f] } = .next t →
      step s = .next { t with fill := 0, armed := false }

/-- R87: the transition table of `fill` and `armed`, every row. -/
def Obligations.FillTransitionTable : Prop :=
  ∀ s t : State, step s = .next t →
    ((deliver s).rx = [] → (deliver s).fill = 0 →
      t.fill = 0 ∧ ((deliver s).armed = false → t = deliver s)) ∧
    (∀ b rest, (deliver s).rx = b :: rest → (deliver s).fill = 0 →
      t.fill = 1 ∧ t.armed = true ∧ t.deadline = (deliver s).now + 500 ∧ t.buf.p1 = b) ∧
    ((deliver s).rx = [] → (deliver s).fill ≠ 0 →
      ¬((deliver s).armed = true ∧ (deliver s).deadline < (deliver s).now) → t = deliver s) ∧
    ((deliver s).rx = [] → (deliver s).fill ≠ 0 →
      (deliver s).armed = true ∧ (deliver s).deadline < (deliver s).now →
      t = { deliver s with fill := 0, armed := false }) ∧
    (∀ b rest, (deliver s).rx = b :: rest → (deliver s).fill ≠ 0 → (deliver s).fill ≠ 4 →
      t.fill.val = (deliver s).fill.val + 1 ∧ t.buf.get (deliver s).fill = b ∧
      t.armed = (deliver s).armed ∧ t.deadline = (deliver s).deadline) ∧
    (∀ b rest, (deliver s).rx = b :: rest → (deliver s).fill = 4 →
      t.fill = 0 ∧ t.armed = false ∧ t.buf.cmd = b ∧
      t.dispatched = s.dispatched ++ [{ (deliver s).buf with cmd := b }])

/-- R86, one step of it: a step dispatches a frame exactly when it takes a byte at fill index 4, and then it dispatches the
four bytes in `buf` and that byte; every other step dispatches nothing. -/
def Obligations.DispatchExactlyAtTheFifthByte : Prop :=
  ∀ s t : State, step s = .next t →
    t.dispatched = s.dispatched ++
      match (deliver s).rx with
      | [] => []
      | b :: _ => if (deliver s).fill = 4 then [{ (deliver s).buf with cmd := b }] else []

/-- R113: "A model's step function for this block is total": every state has a next state. -/
def Obligations.EveryStepHasANextState : Prop :=
  ∀ s : State, ∃ t, step s = .next t

/-- R84: a tick takes the head of the queue, if there is one, and nothing more, whether or not it completes a frame; and
a frame that is wholly in the queue needs five ticks (the spec's own derivation): from `Idle` with the five bytes waiting and
no reset, the first four ticks dispatch nothing and the fifth dispatches it, as the model's dispatch marks tell (log 15). -/
def Obligations.OneByteATick : Prop :=
  (∀ s t : State, step s = .next t → t.rx = (deliver s).rx.tail) ∧
  ∀ (s : State) (b0 b1 b2 b3 b4 : Byte) (rest : List Byte),
    s.fill = 0 → NoReset s → s.rx = b0 :: b1 :: b2 :: b3 :: b4 :: rest →
    (∃ t, Host.Core.run core 4 s = .next t ∧ t.fill = 4 ∧ t.dispatched = s.dispatched) ∧
    ∃ t, Host.Core.run core 5 s = .next t ∧ t.fill = 0 ∧
      t.dispatched = s.dispatched ++ [⟨b0, b1, b2, b3, b4⟩]

/-- R83, decision D4: at `now = deadline` the partial frame is kept; one millisecond later it is dropped. -/
def Obligations.DeadlineIsStrict : Prop :=
  ∀ s : State, s.schedule = [] → s.rx = [] → s.armed = true →
    (s.now = s.deadline → step s = .next s) ∧
    (s.now = s.deadline + 1 → step s = .next { s with fill := 0, armed := false })

/-- R88, R119 (a), (b): while a byte is waiting, the old deadline plays no part: in `Filling` the tick is the same for every
value of it, and leaves it as it was; in `Idle` it is overwritten. -/
def Obligations.ByteTickIgnoresTheDeadline : Prop :=
  ∀ (s : State) (d : Nat), s.rx ≠ [] →
    (s.fill ≠ 0 → ∀ t, tick s = .next t → tick { s with deadline := d } = .next { t with deadline := d }) ∧
    (s.fill = 0 → tick { s with deadline := d } = tick s)

/-- R38: boundaries are found by counting alone. From `Idle`, with no reset to come, one tick for each waiting byte
dispatches exactly the frames the count yields, in order, whatever their bytes, and leaves the remainder. -/
def Obligations.FramesAreFoundByCounting : Prop :=
  ∀ s : State, s.fill = 0 → NoReset s →
    ∃ t, Host.Core.run core s.rx.length s = .next t ∧
      t.dispatched = s.dispatched ++ framesOf s.rx ∧ t.fill.val = s.rx.length % 5

/-- X4, R78 with R79 to R81: bytes of a partial frame are not prepended to the next one if an empty tick sees the passed
deadline: after such a tick, five bytes that arrive together are dispatched as one frame, and nothing else is. -/
def Obligations.StaleBytesAreDroppedByAnEmptyTick : Prop :=
  ∀ (s : State) (x y : TickInput) (rest : List TickInput) (b0 b1 b2 b3 b4 : Byte),
    s.schedule = x :: y :: rest → NoReset s → s.rx = [] → x.arrivals = [] →
    s.armed = true → s.deadline < s.now + x.elapsed → y.arrivals = [b0, b1, b2, b3, b4] →
    ∃ t, Host.Core.run core 6 s = .next t ∧ t.dispatched = s.dispatched ++ [⟨b0, b1, b2, b3, b4⟩]

/-- R131, R88 (the spec's derivation): without an empty tick the stale bytes of a partial frame are joined to the bytes that come
next, however late: three old bytes and two new ones are one frame. -/
def Obligations.StaleBytesJoinWithoutAnEmptyTick : Prop :=
  ∀ (s : State) (b3 b4 : Byte) (rest : List Byte),
    s.fill = 3 → NoReset s → s.rx = b3 :: b4 :: rest →
    ∃ t, Host.Core.run core 2 s = .next t ∧ t.fill = 0 ∧
      t.dispatched = s.dispatched ++ [⟨s.buf.p1, s.buf.p2, s.buf.p3, b3, b4⟩]

/-- The model's way to place a table word (log 1, log 2): the very next step dispatches the frame of that word, whatever
the state and the schedule. -/
def Obligations.PlacedWordRunsAtTheNextStep : Prop :=
  ∀ (s : State) (nbits w : Nat), ∃ t, step (s.withFetchWord nbits w) = .next t ∧
    t.dispatched = s.dispatched ++ [frameOfTableWord nbits w]

/-- R18 and more, as the machine's invariant: every step, under every move of the environment, keeps it, for the parameters of
this model and for any others. -/
def Obligations.EveryStepKeepsTheInvariant : Prop :=
  (∀ s t : State, Inv params s → step s = .next t → Inv params t) ∧
  ∀ (P : Params) (s t : State), Inv P s → stepWith P s = .next t → Inv P t

/-- The invariant holds after reset, whatever the parameters. -/
def Obligations.ResetMeetsTheInvariant : Prop := ∀ P : Params, Inv P State.reset

/-- R30: the step takes the parameters as arguments, and the machine of the host's interface is the step at this model's: its
commands, its decoder, its tick and its step. -/
def Obligations.StepIsTheStepAtTheseParameters : Prop :=
  (∀ (i : Instr) (s : State), exec i s = execWith params i s) ∧
  (∀ f : Frame, decode f = decodeWith params.opcodes f) ∧
  (∀ s : State, tick s = tickWith params s) ∧
  ∀ s : State, step s = stepWith params s

/-- R30, R82: the tick for every choice of the parameters: total; an empty tick; the first byte, which arms the deadline to the
parameter `TIMEOUT_MS`; a later byte; the fifth byte, which runs the command that the opcode parameters select. -/
def Obligations.StepForEveryParameterChoice : Prop :=
  ∀ (P : Params) (s : State), (∃ t, stepWith P s = .next t) ∧
    ((deliver s).rx = [] → stepWith P s = .next
      (if (deliver s).armed = true ∧ (deliver s).deadline < (deliver s).now
        then { deliver s with fill := 0, armed := false } else deliver s)) ∧
    ∀ b rest, (deliver s).rx = b :: rest →
      ((deliver s).fill = 0 → stepWith P s = .next
        { deliver s with
          rx := rest
          buf := { (deliver s).buf with p1 := b }
          fill := 1
          deadline := (deliver s).now + P.timeoutMs
          armed := true }) ∧
      ((deliver s).fill ≠ 0 → (deliver s).fill ≠ 4 → stepWith P s = .next
        { deliver s with
          rx := rest, buf := (deliver s).buf.set (deliver s).fill b, fill := (deliver s).fill + 1 }) ∧
      ((deliver s).fill = 4 → ∀ f : Frame, f = { (deliver s).buf with cmd := b } →
        ∃ t, execWith P (decodeWith P.opcodes f)
            { deliver s with rx := rest, buf := f, trace := (deliver s).trace ++ [.dispatch f] } = .next t ∧
          stepWith P s = .next { t with fill := 0, armed := false })

/-- R33, R42 (a): replies and calls are only ever added behind the earlier ones; a step uses one entry of the schedule, and
the tick itself does not change the time. -/
def Obligations.TraceOnlyGrows : Prop :=
  ∀ s t : State, step s = .next t →
    (∃ es, t.trace = s.trace ++ es) ∧ (∃ bs, t.replyStream = s.replyStream ++ bs) ∧
    t.schedule = s.schedule.tail ∧ t.now = (deliver s).now

/-- R19: between ticks the framer is in `Idle` or `Filling`; a tick that goes through `TimedOut` or `Complete` ends in
`Idle`, and one that does neither ends in `Idle` only if it began there with no byte waiting. -/
def Obligations.TransientStatesEndInIdle : Prop :=
  ∀ s t : State, step s = .next t →
    (t.phase = .idle ∨ t.phase = .filling) ∧
    (tickPhase (deliver s) = .timedOut ∨ tickPhase (deliver s) = .complete → t.phase = .idle) ∧
    (tickPhase (deliver s) = .filling → t.phase = .filling) ∧
    (tickPhase (deliver s) = .idle → t.phase = .idle)

/-! ### The commands -/

/-- R92. The frame is decoded with the BCD codec, pushed, the display refreshed, one zero byte written; `00 00 00 00`
is 0 Hz, the value is a multiple of 10 and at most 1_666_666_650. What the radio makes of the push is its own (R122):
`radioAfter`, a free value; with the spec's reference radio (D18) it is the frequency it then holds. -/
def Obligations.SetFrequencyEffect : Prop :=
  (∀ (m : OpcodeMap) (p1 p2 p3 p4 : Byte),
    decodeWith m ⟨p1, p2, p3, p4, m.setFreq⟩ = .setfreq p1 p2 p3 p4) ∧
  (∀ (p1 p2 p3 p4 : Byte) (s : State),
    exec (.setfreq p1 p2 p3 p4) s = .next
      { s with
        radio := radioAfter params (.setFrequencyHz (decodeFrequencyBCD p1 p2 p3 p4)) s.radio
        trace := s.trace ++
          [.call (.setFrequencyHz (decodeFrequencyBCD p1 p2 p3 p4)), .refresh, .write [0x00]] } ∧
    (decodeFrequencyBCD p1 p2 p3 p4).toNat % 10 = 0 ∧ (decodeFrequencyBCD p1 p2 p3 p4).toNat ≤ 1666666650) ∧
  (∀ (P : Params) (p1 p2 p3 p4 : Byte) (s : State), P.react = referenceReact →
    (setFrequency P p1 p2 p3 p4 s).radio = { s.radio with freqHz := decodeFrequencyBCD p1 p2 p3 p4 }) ∧
  decodeFrequencyBCD 0x00 0x00 0x00 0x00 = 0 ∧ decodeFrequencyBCD 0xFF 0xFF 0xFF 0xFF = 1666666650 ∧
  decodeFrequencyBCD 0x01 0x42 0x34 0x56 = 14234560

/-- R93, R94: one call of `setSplitOn`, also when split is already so; no write, no refresh. With the reference radio
(D18) split is then so, and a call that finds it so changes nothing of the radio. -/
def Obligations.SplitOnAndOffEffect : Prop :=
  (∀ m : OpcodeMap, m.Valid → ∀ p1 p2 p3 p4 : Byte,
    decodeWith m ⟨p1, p2, p3, p4, m.splitOn⟩ = .spliton p1 p2 p3 p4 ∧
    decodeWith m ⟨p1, p2, p3, p4, m.splitOff⟩ = .splitoff p1 p2 p3 p4) ∧
  (∀ (P : Params) (on : Bool) (s : State), P.react = referenceReact →
    (setSplit P on s).radio = { s.radio with split := on } ∧
    (s.radio.split = on → (setSplit P on s).radio = s.radio)) ∧
  ∀ (p1 p2 p3 p4 : Byte) (s : State),
    exec (.spliton p1 p2 p3 p4) s = .next
      { s with
        radio := radioAfter params (.setSplitOn true) s.radio
        trace := s.trace ++ [.call (.setSplitOn true)] } ∧
    exec (.splitoff p1 p2 p3 p4) s = .next
      { s with
        radio := radioAfter params (.setSplitOn false) s.radio
        trace := s.trace ++ [.call (.setSplitOn false)] }

/-- R95: one write of five bytes, the BCD frequency and the mode code, 0x01 for USB and 0x00 for every other mode; no
radio state changes, no refresh. That the two getters see one radio is the model's inference (log 19), and their order the
spec's own choice (R104, log 23). -/
def Obligations.ReadFreqAndModeEffect : Prop :=
  (∀ m : OpcodeMap, m.Valid → ∀ p1 p2 p3 p4 : Byte,
    decodeWith m ⟨p1, p2, p3, p4, m.readFreqMode⟩ = .rdfreq p1 p2 p3 p4) ∧
  (∀ (p1 p2 p3 p4 : Byte) (s : State),
    exec (.rdfreq p1 p2 p3 p4) s = .next
      { s with
        trace := s.trace ++ [.get .getFrequencyHz, .get .getMode,
          .write (encodeFrequencyBCD s.radio.freqHz ++ [if s.radio.mode = .usb then 0x01 else 0x00])] } ∧
    (encodeFrequencyBCD s.radio.freqHz).length = 4) ∧
  encodeFrequencyBCD 7074000 = [0x00, 0x70, 0x74, 0x00] ∧
  ∀ f g : Freq, f.toNat % 10 ^ 9 / 10 = g.toNat % 10 ^ 9 / 10 → encodeFrequencyBCD f = encodeFrequencyBCD g

/-- R96: the mode is set from `P1` (LSB for the two selectors, USB for every other byte), the reply goes out, then the
frequency the radio holds by then is pushed again, then the refresh. With the reference radio (D18) the
mode is then the selected one and the frequency is unchanged. The examples have the default selectors (log 5). -/
def Obligations.OperatingModeEffect : Prop :=
  (∀ m : OpcodeMap, m.Valid → ∀ p1 p2 p3 p4 : Byte,
    decodeWith m ⟨p1, p2, p3, p4, m.mode⟩ = .mode p1 p2 p3 p4) ∧
  (∀ (p1 p2 p3 p4 : Byte) (s : State) (mode : Mode) (r : Radio),
    mode = (if p1 = params.selectors.lsb0 ∨ p1 = params.selectors.lsb1 then .lsb else .usb) →
    r = radioAfter params (.setMode mode) s.radio →
    exec (.mode p1 p2 p3 p4) s = .next
      { s with
        radio := radioAfter params (.setFrequencyHz r.freqHz) r
        trace := s.trace ++ [.call (.setMode mode), .write [0x00], .get .getFrequencyHz,
          .call (.setFrequencyHz r.freqHz), .refresh] }) ∧
  (∀ (P : Params) (p1 : Byte) (s : State), P.react = referenceReact →
    (operatingMode P p1 s).radio = { s.radio with mode := selectMode P.selectors p1 }) ∧
  selectMode ⟨0x00, 0x03⟩ 0x00 = .lsb ∧ selectMode ⟨0x00, 0x03⟩ 0x03 = .lsb ∧
  selectMode ⟨0x00, 0x03⟩ 0x01 = .usb ∧ selectMode ⟨0x00, 0x03⟩ 0x04 = .usb

/-- R97: not transmitting: mark the flag, start transmit with `TX_KIND_CAT`, reply 00; transmitting: reply F0 and nothing
changes; the display is refreshed at the end either way. With the reference radio (D18) it then transmits. -/
def Obligations.PttOnEffect : Prop :=
  (∀ m : OpcodeMap, m.Valid → ∀ p1 p2 p3 p4 : Byte,
    decodeWith m ⟨p1, p2, p3, p4, m.pttOn⟩ = .ptton p1 p2 p3 p4) ∧
  (∀ (P : Params) (s : State), P.react = referenceReact → s.radio.transmitting = false →
    (pttOn P s).radio = { s.radio with transmitting := true, catTx := true }) ∧
  ∀ (p1 p2 p3 p4 : Byte) (s : State),
    (s.radio.transmitting = false →
      exec (.ptton p1 p2 p3 p4) s = .next
        { s with
          radio := radioAfter params (.startTransmit params.txKindCat) (radioAfter params (.setCatTx true) s.radio)
          trace := s.trace ++ [.get .isTransmitting, .call (.setCatTx true),
            .call (.startTransmit params.txKindCat), .write [0x00], .refresh] }) ∧
    (s.radio.transmitting = true →
      exec (.ptton p1 p2 p3 p4) s = .next
        { s with trace := s.trace ++ [.get .isTransmitting, .write [0xF0], .refresh] })

/-- R98: stop the transmission if there is one, clear the flag in either case, reply 00, refresh. With the reference
radio (D18) it then does not transmit. -/
def Obligations.PttOffEffect : Prop :=
  (∀ m : OpcodeMap, m.Valid → ∀ p1 p2 p3 p4 : Byte,
    decodeWith m ⟨p1, p2, p3, p4, m.pttOff⟩ = .pttoff p1 p2 p3 p4) ∧
  (∀ (P : Params) (s : State), P.react = referenceReact →
    (pttOff P s).radio = { s.radio with transmitting := false, catTx := false }) ∧
  ∀ (p1 p2 p3 p4 : Byte) (s : State),
    (s.radio.transmitting = true →
      exec (.pttoff p1 p2 p3 p4) s = .next
        { s with
          radio := radioAfter params (.setCatTx false) (radioAfter params .stopTransmit s.radio)
          trace := s.trace ++ [.get .isTransmitting, .call .stopTransmit, .call (.setCatTx false),
            .write [0x00], .refresh] }) ∧
    (s.radio.transmitting = false →
      exec (.pttoff p1 p2 p3 p4) s = .next
        { s with
          radio := radioAfter params (.setCatTx false) s.radio
          trace := s.trace ++ [.get .isTransmitting, .call (.setCatTx false), .write [0x00], .refresh] })

/-- R99: the other designator is set, one zero byte written, the display refreshed; the designator's other is never itself,
and twice the other is the first again; with the reference radio (D18) two toggles in a row leave the radio as it was. -/
def Obligations.VfoToggleEffect : Prop :=
  (∀ m : OpcodeMap, m.Valid → ∀ p1 p2 p3 p4 : Byte,
    decodeWith m ⟨p1, p2, p3, p4, m.vfoToggle⟩ = .vfotog p1 p2 p3 p4) ∧
  (∀ (p1 p2 p3 p4 : Byte) (s : State) (v : Vfo), v = (if s.radio.vfo = .a then .b else .a) →
    exec (.vfotog p1 p2 p3 p4) s = .next
      { s with
        radio := radioAfter params (.setActiveVfo v) s.radio
        trace := s.trace ++ [.get .getActiveVfo, .call (.setActiveVfo v), .write [0x00], .refresh] }) ∧
  (∀ (P : Params) (s : State), P.react = referenceReact →
    (vfoToggle P s).radio = { s.radio with vfo := otherVfo s.radio.vfo } ∧
    (vfoToggle P (vfoToggle P s)).radio = s.radio) ∧
  ∀ v : Vfo, otherVfo v ≠ v ∧ otherVfo (otherVfo v) = v

/-- R106, R111, R112, R100: the pair of the table for (`P2`, `P1`) is put in `buf[0]` and `buf[1]`, the rest of `buf` is
kept, and it is written to the transport in one write of two bytes after the getters the entry needs; no radio
state changes, no refresh, no reply besides. In every table an unrecognised selector gives two zero bytes (R107);
that it calls no getter is the model's inference (log 6). -/
def Obligations.ReadLegacyEffect : Prop :=
  (∀ m : OpcodeMap, m.Valid → ∀ p1 p2 p3 p4 : Byte,
    decodeWith m ⟨p1, p2, p3, p4, 0xBB⟩ = .rdlegacy p1 p2 p3 p4) ∧
  (∀ (T : LegacyTable) (a1 a0 : Byte) (r : Radio), a1 ≠ 0x55 → T.entry a1 = none →
    legacyTable T a1 a0 r = ([], 0x00, 0x00)) ∧
  ∀ (p1 p2 p3 p4 r0 r1 : Byte) (gs : List Getter) (s : State),
    legacyTable params.legacy p2 p1 s.radio = (gs, r0, r1) →
    exec (.rdlegacy p1 p2 p3 p4) s = .next
      { s with
        buf := { s.buf with p1 := r0, p2 := r1 }
        trace := s.trace ++ (gs.map .get ++ [.write [r0, r1]]) }

/-- R107, R110, for every table: an unrecognised selector reads as (00, 00), and so does a selector whose entry checks `P1`
when `P1` is not the byte checked (the spec's own derivation); when it is, and for an entry that checks nothing, the entry's
program is run, `P1` playing no further part. That an unrecognised selector calls no getter is the model's inference
(log 6). -/
def Obligations.UnrecognisedLegacyAddressReadsZero : Prop :=
  ∀ (T : LegacyTable) (a1 a0 : Byte) (r : Radio), a1 ≠ 0x55 →
    (T.entry a1 = none → legacyTable T a1 a0 r = ([], 0x00, 0x00)) ∧
    (∀ e low, T.entry a1 = some e → e.expectP1 = some low → a0 ≠ low →
      (legacyTable T a1 a0 r).2 = (0x00, 0x00)) ∧
    (∀ e, T.entry a1 = some e → e.expectP1 = some a0 ∨ e.expectP1 = none →
      legacyTable T a1 a0 r = runProgram e.program r)

/-- R109: an entry of one of the kinds the rule names calls the getters of its kind and gives a pair computed from their answers;
a fixed entry calls none and gives the same pair whatever the radio. Which getter a kind calls is the model's inference
(log 6); the table is not confined to these entries. -/
def Obligations.LegacyEntriesOfEachKindReadWhatTheyNeed : Prop :=
  ∀ (T : LegacyTable) (a1 a0 : Byte) (r : Radio) (expect : Option Byte) (pair : List Answer → Byte × Byte),
    a1 ≠ 0x55 → expect = none ∨ expect = some a0 → ∀ k : LegacyKind,
    T.entry a1 = some ⟨expect, legacyKindProgram k pair⟩ →
    legacyTable T a1 a0 r =
      match k with
      | .fixed => ([], pair [])
      | .activeVfo => ([.getActiveVfo], pair [.vfo r.vfo])
      | .sideTone => ([.getSideTone], pair [.setting r.sideTone])
      | .txTimeout => ([.getCwTimeout], pair [.setting r.cwTimeout])
      | .cwSpeed => ([.getCwDit], pair [.setting r.cwDit])
      | .split => ([.isSplitOn], pair [.flag r.split])
      | .activeMode => ([.getMode], pair [.mode r.mode])

/-- R106: a table "may call getters of the radio-state collaborator and nothing else": for every table, two radios that answer
every getter alike give the same getter calls and the same pair, whatever else they hold. -/
def Obligations.LegacyTableSeesTheRadioThroughGetters : Prop :=
  ∀ (T : LegacyTable) (a1 a0 : Byte) (r r' : Radio), (∀ g : Getter, getterAnswer g r = getterAnswer g r') →
    legacyTable T a1 a0 r = legacyTable T a1 a0 r'

/-- R108, for every table: with `P2 = 0x55` bit 0 of the first byte is 0 for VFO A and 1 for VFO B, bits 7:1 are the
table's constant, and the second byte is a constant. That 0x55 is the value of `P2` is the spec's own derivation, that `P1`
plays no part its decision D12, and that the one getter called is `getActiveVfo` the model's inference (log 6). -/
def Obligations.LegacyVfoEntryShowsTheActiveVfo : Prop :=
  ∀ (T : LegacyTable) (a0 : Byte) (r : Radio), ∃ r0 : Byte,
    legacyTable T 0x55 a0 r = ([.getActiveVfo], r0, T.vfoR1) ∧
    (r0.getLsbD 0 = true ↔ r.vfo = .b) ∧
    ∀ k : Nat, 1 ≤ k → k ≤ 7 → r0.getLsbD k = T.vfoFixed.getLsbD k

/-- R101: one write of the RX status byte, nothing else; the example has the default positions (log 4). -/
def Obligations.ReadRxStatusEffect : Prop :=
  (∀ m : OpcodeMap, m.Valid → ∀ p1 p2 p3 p4 : Byte,
    decodeWith m ⟨p1, p2, p3, p4, m.readRxStatus⟩ = .rdrxs p1 p2 p3 p4) ∧
  (∀ (p1 p2 p3 p4 : Byte) (s : State),
    exec (.rdrxs p1 p2 p3 p4) s = .next
      { s with trace := s.trace ++ [.write [buildRxStatus params.rx 9 true false false false]] }) ∧
  buildRxStatus ⟨5, 7, 6, 4⟩ 9 true false false false = 0x29

/-- R102: one write of the TX status byte, nothing else changes; the power nibble is 0xF whether or not the radio
transmits, and each named flag is the negation of its thing. That the two getters see one radio is the model's inference
(log 19), and their order the spec's own choice (R104, log 23). -/
def Obligations.ReadTxStatusEffect : Prop :=
  (∀ m : OpcodeMap, m.Valid → ∀ p1 p2 p3 p4 : Byte,
    decodeWith m ⟨p1, p2, p3, p4, m.readTxStatus⟩ = .rdtxs p1 p2 p3 p4) ∧
  (∀ (p1 p2 p3 p4 : Byte) (s : State),
    exec (.rdtxs p1 p2 p3 p4) s = .next
      { s with
        trace := s.trace ++ [.get .isTransmitting, .get .isSplitOn,
          .write [buildTxStatus params.tx 0xF (!s.radio.transmitting) (!s.radio.split) false false]] }) ∧
  buildTxStatus ⟨7, 5, 6, 4⟩ 0xF false false false false = 0x0F ∧
  buildTxStatus ⟨7, 5, 6, 4⟩ 0xF true true false false = 0xAF

/-- R103: `DEFAULT` and each of its thirteen rows write one zero byte and do nothing else; no collaborator is called. -/
def Obligations.DefaultRowsAcknowledgeOnly : Prop :=
  ∀ (i : Instr) (s : State), isDefaultRow i = true →
    exec i s = .next { s with trace := s.trace ++ [.write [0x00]] }

/-- R104 (the spec's derivation), for every choice of the parameters: every command makes the calls and writes of its row, in
order and with their values, and nothing else in the trace; the radio is then what those calls make of it; and the row holds as
many reply bytes as its column W says, in at most one write, and a refresh exactly where its column R marks one. The same
for this model's parameters. The two getters of a command see one radio (log 19), in the spec's own order (log 23). -/
def Obligations.EffectsMatchTheSummaryTable : Prop :=
  (∀ (P : Params) (i : Instr) (s : State), ∃ t : State, execWith P i s = .next t ∧
    t.trace = s.trace ++ summaryEvents P i s.radio ∧
    t.radio = replayRadio P (summaryEvents P i s.radio) s.radio) ∧
  (∀ (i : Instr) (s : State), ∃ t : State, exec i s = .next t ∧
    t.trace = s.trace ++ summaryEvents params i s.radio ∧
    t.radio = replayRadio params (summaryEvents params i s.radio) s.radio) ∧
  ∀ (P : Params) (i : Instr) (r : Radio),
    ((summaryEvents P i r).flatMap Event.bytes).length = replyLength i ∧
    (summaryEvents P i r).countP isWrite = (if replyLength i = 0 then 0 else 1) ∧
    (summaryEvents P i r).count .refresh = (if refreshes i then 1 else 0)

/-! ### Frames -/

/-- The frame of every command: `fill`, `deadline`, `armed`, the receive queue, the time and the schedule are unchanged;
`buf` is unchanged but for `P1` and `P2` under `RDLEGACY` (R112: "the only place where anything but the framer
writes `buf`"); the trace only grows. -/
def Obligations.CommandsLeaveTheFramerAlone : Prop :=
  ∀ (i : Instr) (s t : State), exec i s = .next t →
    t.fill = s.fill ∧ t.deadline = s.deadline ∧ t.armed = s.armed ∧ t.rx = s.rx ∧ t.now = s.now ∧
    t.schedule = s.schedule ∧ t.buf.p3 = s.buf.p3 ∧ t.buf.p4 = s.buf.p4 ∧ t.buf.cmd = s.buf.cmd ∧
    ((∀ p1 p2 p3 p4, i ≠ .rdlegacy p1 p2 p3 p4) → t.buf = s.buf) ∧
    ∃ es, t.trace = s.trace ++ es

/-- R104, R106: `RDFREQ`, `RDLEGACY`, `RDRXS`, `RDTXS` and the default rows change no radio state, and the calls they
record are getters only. -/
def Obligations.ReadsChangeNoRadioState : Prop :=
  ∀ (i : Instr) (s t : State), keepsRadio i = true → exec i s = .next t →
    t.radio = s.radio ∧ t.trace.filterMap eventCall = s.trace.filterMap eventCall

/-- R27: "the core never owns this state, only reads/mutates it through the interface": over a whole step the radio
is what the recorded calls, in order, make of the radio the environment handed to the tick. -/
def Obligations.RadioChangesOnlyThroughCalls : Prop :=
  ∀ s t : State, step s = .next t →
    ∃ es, t.trace = s.trace ++ es ∧ t.radio = replayRadio params es (deliver s).radio

/-- R28 and decision D13: of all commands only `PTTON`, when it is not busy, marks the CAT-initiated flag, and only `PTTOFF`
clears it, always, each by one call of `setCatTx`. What the radio makes of the call is its own (log 8, log 9); with the spec's
reference radio (D18) the flag is then so. -/
def Obligations.CatFlagIsMarkedAndClearedByPtt : Prop :=
  (∀ (i : Instr) (s t : State), exec i s = .next t →
    t.trace.filterMap eventCatTx = s.trace.filterMap eventCatTx ++
      match i with
      | .ptton _ _ _ _ => if s.radio.transmitting then [] else [true]
      | .pttoff _ _ _ _ => [false]
      | _ => []) ∧
  ∀ (P : Params) (i : Instr) (s t : State), P.react = referenceReact → execWith P i s = .next t →
    t.radio.catTx =
      match i with
      | .ptton _ _ _ _ => if s.radio.transmitting then s.radio.catTx else true
      | .pttoff _ _ _ _ => false
      | _ => s.radio.catTx

/-- R34 (the spec's derivation): a legacy read repeated with nothing between changes nothing more and gives the same two
bytes again. -/
def Obligations.LegacyReadIsIdempotent : Prop :=
  ∀ (p1 p2 p3 p4 : Byte) (s t u : State),
    exec (.rdlegacy p1 p2 p3 p4) s = .next t → exec (.rdlegacy p1 p2 p3 p4) t = .next u →
    u.buf = t.buf ∧ u.radio = t.radio ∧ ∃ es, t.trace = s.trace ++ es ∧ u.trace = t.trace ++ es

/-- R45, R112: what a legacy read left in `buf` reaches no later command: two states in `Idle` that differ in `buf` only
give, over five bytes waiting and no reset, the same trace, radio and framer position. -/
def Obligations.OldBufferBytesReachNoLaterCommand : Prop :=
  ∀ (s t : State) (f : Frame) (b0 b1 b2 b3 b4 : Byte) (rest : List Byte),
    s.fill = 0 → NoReset s → s.rx = b0 :: b1 :: b2 :: b3 :: b4 :: rest →
    Host.Core.run core 5 s = .next t → Host.Core.run core 5 { s with buf := f } = .next t
end

