-- ==== Sys2Proof/Laws/Codec.lean ====
section
/-! SUPPORT. The codec's functions as arithmetic on natural numbers, so that later proofs about frequencies are
arithmetic and no more. -/

namespace Sys2Proof.Machine

theorem getHighNibble_toNat (b : Byte) : (getHighNibble b).toNat = b.toNat / 16 := by
  simp [getHighNibble, Nat.shiftRight_eq_div_pow]

theorem getLowNibble_toNat (b : Byte) : (getLowNibble b).toNat = b.toNat % 16 := by
  simp only [getLowNibble, BitVec.toNat_and]
  exact Nat.and_two_pow_sub_one_eq_mod _ 4

/-- Two values below 16 in one byte. -/
theorem packDigits_toNat (hi lo : Nat) (h : hi < 16) (l : lo < 16) :
    (packDigits hi lo).toNat = 16 * hi + lo := by
  revert lo
  revert hi
  decide

theorem digitsOf_succ (n count : Nat) :
    digitsOf n (count + 1) = digitsOf n count ++ [n / 10 ^ count % 10] := by
  simp [digitsOf, List.range_succ]

theorem accumulateBCD_eq (value : Nat) (b : Byte) :
    accumulateBCD value b = value * 100 + 10 * (b.toNat / 16) + b.toNat % 16 := by
  rw [accumulateBCD, getHighNibble_toNat, getLowNibble_toNat]

end Sys2Proof.Machine
end

