-- ==== Sys2Proof/Laws/Decode.lean ====
section
/-! SUPPORT. The lookup of a row, once for all later proofs: what it finds, when it finds nothing, and that with
different opcode bytes it finds the row asked for. -/

namespace Sys2Proof

/-- What a lookup finds is a row of the table with the frame's opcode byte. -/
theorem lookupRow_some (rows : List OpcodeRow) (f : Frame) (i : Instr) (h : lookupRow rows f = some i) :
    ∃ row ∈ rows, f.cmd = row.1 ∧ i = row.2 f.p1 f.p2 f.p3 f.p4 := by
  induction rows with
  | nil => simp [lookupRow] at h
  | cons row rows ih =>
    by_cases hc : f.cmd = row.1
    · simp only [lookupRow, hc, if_true, Option.some.injEq] at h
      exact ⟨row, by simp, hc, h.symm⟩
    · simp only [lookupRow, hc, if_false] at h
      obtain ⟨r, hr, h1, h2⟩ := ih h
      exact ⟨r, by simp [hr], h1, h2⟩

/-- A lookup finds nothing exactly when no row has the frame's opcode byte. -/
theorem lookupRow_none (rows : List OpcodeRow) (f : Frame) :
    lookupRow rows f = none ↔ f.cmd ∉ rows.map Prod.fst := by
  induction rows with
  | nil => simp [lookupRow]
  | cons row rows ih =>
    by_cases hc : f.cmd = row.1
    · simp [lookupRow, hc]
    · simpa [lookupRow, hc] using ih

/-- Where the opcode bytes are pairwise different, every row is found under its own byte. -/
theorem lookupRow_of_mem (rows : List OpcodeRow) (hn : (rows.map Prod.fst).Nodup) (row : OpcodeRow)
    (hr : row ∈ rows) (p1 p2 p3 p4 : Byte) :
    lookupRow rows ⟨p1, p2, p3, p4, row.1⟩ = some (row.2 p1 p2 p3 p4) := by
  induction rows with
  | nil => simp at hr
  | cons r rows ih =>
    rw [List.map_cons, List.nodup_cons] at hn
    by_cases hc : row.1 = r.1
    · rcases List.mem_cons.1 hr with rfl | hm
      · simp [lookupRow]
      · exact absurd (hc ▸ List.mem_map_of_mem (f := Prod.fst) hm) hn.1
    · rcases List.mem_cons.1 hr with rfl | hm
      · exact absurd rfl hc
      · simpa [lookupRow, hc] using ih hn.2 hm

theorem handledRows_keys (m : OpcodeMap) : (handledRows m).map Prod.fst = m.handled := rfl

theorem instanceRows_keys : instanceRows.map Prod.fst = defaultInstances := rfl

/-- The instances' opcode bytes are pairwise different. -/
theorem instanceRows_nodup : (instanceRows.map Prod.fst).Nodup := by decide

/-- Encoding a row's instruction puts the row's opcode byte behind the parameters. -/
theorem encodeWith_handledRow (m : OpcodeMap) (row : OpcodeRow) (hr : row ∈ handledRows m) (p1 p2 p3 p4 : Byte) :
    encodeWith m (row.2 p1 p2 p3 p4) = ⟨p1, p2, p3, p4, row.1⟩ := by
  simp only [handledRows, List.mem_cons, List.not_mem_nil, or_false] at hr
  rcases hr with rfl | rfl | rfl | rfl | rfl | rfl | rfl | rfl | rfl | rfl | rfl <;> rfl

theorem encodeWith_instanceRow (m : OpcodeMap) (row : OpcodeRow) (hr : row ∈ instanceRows) (p1 p2 p3 p4 : Byte) :
    encodeWith m (row.2 p1 p2 p3 p4) = ⟨p1, p2, p3, p4, row.1⟩ := by
  simp only [instanceRows, List.mem_cons, List.not_mem_nil, or_false] at hr
  rcases hr with rfl | rfl | rfl | rfl | rfl | rfl | rfl | rfl | rfl | rfl | rfl | rfl | rfl <;> rfl

theorem decodeWith_of_not_handled (m : OpcodeMap) (f : Frame) (h : f.cmd ∉ m.handled) :
    decodeWith m f = decodeDefaultRow f := by
  rw [← handledRows_keys, ← lookupRow_none] at h
  rw [decodeWith, h]; rfl

theorem decodeWith_of_lookup (m : OpcodeMap) (f : Frame) (i : Instr) (h : lookupRow (handledRows m) f = some i) :
    decodeWith m f = i := by
  rw [decodeWith, h]; rfl

theorem decodeDefaultRow_of_no_instance (f : Frame) (h : f.cmd ∉ defaultInstances) :
    decodeDefaultRow f = .defaultOp f.p1 f.p2 f.p3 f.p4 f.cmd := by
  rw [← instanceRows_keys, ← lookupRow_none] at h
  rw [decodeDefaultRow, h]; rfl

end Sys2Proof
end

