-- ==== Sys2Proof/Laws/Flags.lean ====
section
/-! SUPPORT. A status register bit by bit. -/

namespace Sys2Proof.Machine

/-- The bit `k` of a flag placed at position `pos`. -/
theorem flagAt_getLsbD (flag : Bool) (pos k : Nat) :
    (flagAt flag pos).getLsbD k = (flag && decide (k = pos) && decide (k < 8)) := by
  cases flag
  · simp [flagAt]
  · have h : flagAt true pos = BitVec.ofNat 8 (2 ^ pos) := by
      simp [flagAt, Nat.one_shiftLeft]
    rw [h, BitVec.getLsbD_ofNat, Nat.testBit_two_pow, Bool.true_and, Bool.and_comm]
    simp only [eq_comm]

/-- The magnitude field ends below bit 4. -/
theorem magnitude_getLsbD (v : Byte) (k : Nat) : (v &&& 0x0F).getLsbD k = (v.getLsbD k && decide (k < 4)) := by
  rw [BitVec.getLsbD_and]
  congr 1
  by_cases h : k < 8
  · revert k
    decide
  · rw [BitVec.getLsbD_of_ge _ _ (by omega)]
    simp
    omega

end Sys2Proof.Machine
end

