-- ==== Sys2Proof/Laws/State.lean ====
section
/-! SUPPORT. One lemma per field per update of the state, so that no later proof unfolds a record update. -/

namespace Sys2Proof.Machine

@[simp] theorem emit_buf (e : Event) (s : State) : (emit e s).buf = s.buf := rfl
@[simp] theorem emit_fill (e : Event) (s : State) : (emit e s).fill = s.fill := rfl
@[simp] theorem emit_deadline (e : Event) (s : State) : (emit e s).deadline = s.deadline := rfl
@[simp] theorem emit_armed (e : Event) (s : State) : (emit e s).armed = s.armed := rfl
@[simp] theorem emit_rx (e : Event) (s : State) : (emit e s).rx = s.rx := rfl
@[simp] theorem emit_now (e : Event) (s : State) : (emit e s).now = s.now := rfl
@[simp] theorem emit_radio (e : Event) (s : State) : (emit e s).radio = s.radio := rfl
@[simp] theorem emit_trace (e : Event) (s : State) : (emit e s).trace = s.trace ++ [e] := rfl
@[simp] theorem emit_schedule (e : Event) (s : State) : (emit e s).schedule = s.schedule := rfl

@[simp] theorem radioGet_buf (g : Getter) (s : State) : (radioGet g s).buf = s.buf := rfl
@[simp] theorem radioGet_fill (g : Getter) (s : State) : (radioGet g s).fill = s.fill := rfl
@[simp] theorem radioGet_deadline (g : Getter) (s : State) : (radioGet g s).deadline = s.deadline := rfl
@[simp] theorem radioGet_armed (g : Getter) (s : State) : (radioGet g s).armed = s.armed := rfl
@[simp] theorem radioGet_rx (g : Getter) (s : State) : (radioGet g s).rx = s.rx := rfl
@[simp] theorem radioGet_now (g : Getter) (s : State) : (radioGet g s).now = s.now := rfl
@[simp] theorem radioGet_radio (g : Getter) (s : State) : (radioGet g s).radio = s.radio := rfl
@[simp] theorem radioGet_trace (g : Getter) (s : State) : (radioGet g s).trace = s.trace ++ [.get g] := rfl
@[simp] theorem radioGet_schedule (g : Getter) (s : State) : (radioGet g s).schedule = s.schedule := rfl

@[simp] theorem radioGets_buf (gs : List Getter) (s : State) : (radioGets gs s).buf = s.buf := rfl
@[simp] theorem radioGets_fill (gs : List Getter) (s : State) : (radioGets gs s).fill = s.fill := rfl
@[simp] theorem radioGets_deadline (gs : List Getter) (s : State) : (radioGets gs s).deadline = s.deadline := rfl
@[simp] theorem radioGets_armed (gs : List Getter) (s : State) : (radioGets gs s).armed = s.armed := rfl
@[simp] theorem radioGets_rx (gs : List Getter) (s : State) : (radioGets gs s).rx = s.rx := rfl
@[simp] theorem radioGets_now (gs : List Getter) (s : State) : (radioGets gs s).now = s.now := rfl
@[simp] theorem radioGets_radio (gs : List Getter) (s : State) : (radioGets gs s).radio = s.radio := rfl
@[simp] theorem radioGets_trace (gs : List Getter) (s : State) : (radioGets gs s).trace = s.trace ++ gs.map .get := rfl
@[simp] theorem radioGets_schedule (gs : List Getter) (s : State) : (radioGets gs s).schedule = s.schedule := rfl

@[simp] theorem radioCall_buf (P : Params) (c : RadioCall) (s : State) : (radioCall P c s).buf = s.buf := rfl
@[simp] theorem radioCall_fill (P : Params) (c : RadioCall) (s : State) : (radioCall P c s).fill = s.fill := rfl
@[simp] theorem radioCall_deadline (P : Params) (c : RadioCall) (s : State) : (radioCall P c s).deadline = s.deadline := rfl
@[simp] theorem radioCall_armed (P : Params) (c : RadioCall) (s : State) : (radioCall P c s).armed = s.armed := rfl
@[simp] theorem radioCall_rx (P : Params) (c : RadioCall) (s : State) : (radioCall P c s).rx = s.rx := rfl
@[simp] theorem radioCall_now (P : Params) (c : RadioCall) (s : State) : (radioCall P c s).now = s.now := rfl
@[simp] theorem radioCall_radio (P : Params) (c : RadioCall) (s : State) : (radioCall P c s).radio = radioAfter P c s.radio := rfl
@[simp] theorem radioCall_trace (P : Params) (c : RadioCall) (s : State) : (radioCall P c s).trace = s.trace ++ [.call c] := rfl
@[simp] theorem radioCall_schedule (P : Params) (c : RadioCall) (s : State) : (radioCall P c s).schedule = s.schedule := rfl

@[simp] theorem refresh_buf (s : State) : (refresh s).buf = s.buf := rfl
@[simp] theorem refresh_fill (s : State) : (refresh s).fill = s.fill := rfl
@[simp] theorem refresh_deadline (s : State) : (refresh s).deadline = s.deadline := rfl
@[simp] theorem refresh_armed (s : State) : (refresh s).armed = s.armed := rfl
@[simp] theorem refresh_rx (s : State) : (refresh s).rx = s.rx := rfl
@[simp] theorem refresh_now (s : State) : (refresh s).now = s.now := rfl
@[simp] theorem refresh_radio (s : State) : (refresh s).radio = s.radio := rfl
@[simp] theorem refresh_trace (s : State) : (refresh s).trace = s.trace ++ [.refresh] := rfl
@[simp] theorem refresh_schedule (s : State) : (refresh s).schedule = s.schedule := rfl

@[simp] theorem txWrite_buf (bs : List Byte) (s : State) : (txWrite bs s).buf = s.buf := rfl
@[simp] theorem txWrite_fill (bs : List Byte) (s : State) : (txWrite bs s).fill = s.fill := rfl
@[simp] theorem txWrite_deadline (bs : List Byte) (s : State) : (txWrite bs s).deadline = s.deadline := rfl
@[simp] theorem txWrite_armed (bs : List Byte) (s : State) : (txWrite bs s).armed = s.armed := rfl
@[simp] theorem txWrite_rx (bs : List Byte) (s : State) : (txWrite bs s).rx = s.rx := rfl
@[simp] theorem txWrite_now (bs : List Byte) (s : State) : (txWrite bs s).now = s.now := rfl
@[simp] theorem txWrite_radio (bs : List Byte) (s : State) : (txWrite bs s).radio = s.radio := rfl
@[simp] theorem txWrite_trace (bs : List Byte) (s : State) : (txWrite bs s).trace = s.trace ++ [.write bs] := rfl
@[simp] theorem txWrite_schedule (bs : List Byte) (s : State) : (txWrite bs s).schedule = s.schedule := rfl

@[simp] theorem setP1P2_buf (r0 r1 : Byte) (s : State) : (setP1P2 r0 r1 s).buf = ⟨r0, r1, s.buf.p3, s.buf.p4, s.buf.cmd⟩ := rfl
@[simp] theorem setP1P2_fill (r0 r1 : Byte) (s : State) : (setP1P2 r0 r1 s).fill = s.fill := rfl
@[simp] theorem setP1P2_deadline (r0 r1 : Byte) (s : State) : (setP1P2 r0 r1 s).deadline = s.deadline := rfl
@[simp] theorem setP1P2_armed (r0 r1 : Byte) (s : State) : (setP1P2 r0 r1 s).armed = s.armed := rfl
@[simp] theorem setP1P2_rx (r0 r1 : Byte) (s : State) : (setP1P2 r0 r1 s).rx = s.rx := rfl
@[simp] theorem setP1P2_now (r0 r1 : Byte) (s : State) : (setP1P2 r0 r1 s).now = s.now := rfl
@[simp] theorem setP1P2_radio (r0 r1 : Byte) (s : State) : (setP1P2 r0 r1 s).radio = s.radio := rfl
@[simp] theorem setP1P2_trace (r0 r1 : Byte) (s : State) : (setP1P2 r0 r1 s).trace = s.trace := rfl
@[simp] theorem setP1P2_schedule (r0 r1 : Byte) (s : State) : (setP1P2 r0 r1 s).schedule = s.schedule := rfl

@[simp] theorem toIdle_buf (s : State) : (toIdle s).buf = s.buf := rfl
@[simp] theorem toIdle_fill (s : State) : (toIdle s).fill = 0 := rfl
@[simp] theorem toIdle_deadline (s : State) : (toIdle s).deadline = s.deadline := rfl
@[simp] theorem toIdle_armed (s : State) : (toIdle s).armed = false := rfl
@[simp] theorem toIdle_rx (s : State) : (toIdle s).rx = s.rx := rfl
@[simp] theorem toIdle_now (s : State) : (toIdle s).now = s.now := rfl
@[simp] theorem toIdle_radio (s : State) : (toIdle s).radio = s.radio := rfl
@[simp] theorem toIdle_trace (s : State) : (toIdle s).trace = s.trace := rfl
@[simp] theorem toIdle_schedule (s : State) : (toIdle s).schedule = s.schedule := rfl

@[simp] theorem advance_buf (s : State) : (advance s).buf = s.buf := rfl
@[simp] theorem advance_fill (s : State) : (advance s).fill = s.fill + 1 := rfl
@[simp] theorem advance_deadline (s : State) : (advance s).deadline = s.deadline := rfl
@[simp] theorem advance_armed (s : State) : (advance s).armed = s.armed := rfl
@[simp] theorem advance_rx (s : State) : (advance s).rx = s.rx := rfl
@[simp] theorem advance_now (s : State) : (advance s).now = s.now := rfl
@[simp] theorem advance_radio (s : State) : (advance s).radio = s.radio := rfl
@[simp] theorem advance_trace (s : State) : (advance s).trace = s.trace := rfl
@[simp] theorem advance_schedule (s : State) : (advance s).schedule = s.schedule := rfl

@[simp] theorem storeByte_buf (b : Byte) (rest : List Byte) (s : State) : (storeByte b rest s).buf = s.buf.set s.fill b := rfl
@[simp] theorem storeByte_fill (b : Byte) (rest : List Byte) (s : State) : (storeByte b rest s).fill = s.fill := rfl
@[simp] theorem storeByte_deadline (b : Byte) (rest : List Byte) (s : State) : (storeByte b rest s).deadline = s.deadline := rfl
@[simp] theorem storeByte_armed (b : Byte) (rest : List Byte) (s : State) : (storeByte b rest s).armed = s.armed := rfl
@[simp] theorem storeByte_rx (b : Byte) (rest : List Byte) (s : State) : (storeByte b rest s).rx = rest := rfl
@[simp] theorem storeByte_now (b : Byte) (rest : List Byte) (s : State) : (storeByte b rest s).now = s.now := rfl
@[simp] theorem storeByte_radio (b : Byte) (rest : List Byte) (s : State) : (storeByte b rest s).radio = s.radio := rfl
@[simp] theorem storeByte_trace (b : Byte) (rest : List Byte) (s : State) : (storeByte b rest s).trace = s.trace := rfl
@[simp] theorem storeByte_schedule (b : Byte) (rest : List Byte) (s : State) : (storeByte b rest s).schedule = s.schedule := rfl

@[simp] theorem beginDispatch_buf (s : State) : (beginDispatch s).buf = s.buf := rfl
@[simp] theorem beginDispatch_fill (s : State) : (beginDispatch s).fill = s.fill := rfl
@[simp] theorem beginDispatch_deadline (s : State) : (beginDispatch s).deadline = s.deadline := rfl
@[simp] theorem beginDispatch_armed (s : State) : (beginDispatch s).armed = s.armed := rfl
@[simp] theorem beginDispatch_rx (s : State) : (beginDispatch s).rx = s.rx := rfl
@[simp] theorem beginDispatch_now (s : State) : (beginDispatch s).now = s.now := rfl
@[simp] theorem beginDispatch_radio (s : State) : (beginDispatch s).radio = s.radio := rfl
@[simp] theorem beginDispatch_trace (s : State) : (beginDispatch s).trace = s.trace ++ [.dispatch s.buf] := rfl
@[simp] theorem beginDispatch_schedule (s : State) : (beginDispatch s).schedule = s.schedule := rfl

@[simp] theorem resetFramer_buf (s : State) : (s.resetFramer).buf = resetBuf := rfl
@[simp] theorem resetFramer_fill (s : State) : (s.resetFramer).fill = 0 := rfl
@[simp] theorem resetFramer_deadline (s : State) : (s.resetFramer).deadline = 0 := rfl
@[simp] theorem resetFramer_armed (s : State) : (s.resetFramer).armed = false := rfl
@[simp] theorem resetFramer_rx (s : State) : (s.resetFramer).rx = s.rx := rfl
@[simp] theorem resetFramer_now (s : State) : (s.resetFramer).now = s.now := rfl
@[simp] theorem resetFramer_radio (s : State) : (s.resetFramer).radio = s.radio := rfl
@[simp] theorem resetFramer_trace (s : State) : (s.resetFramer).trace = s.trace := rfl
@[simp] theorem resetFramer_schedule (s : State) : (s.resetFramer).schedule = s.schedule := rfl

@[simp] theorem placeFrame_buf (f : Frame) (s : State) : (placeFrame f s).buf = ⟨f.p1, f.p2, f.p3, f.p4, s.buf.cmd⟩ := rfl
@[simp] theorem placeFrame_fill (f : Frame) (s : State) : (placeFrame f s).fill = 4 := rfl
@[simp] theorem placeFrame_deadline (f : Frame) (s : State) : (placeFrame f s).deadline = s.now + timeoutMs := rfl
@[simp] theorem placeFrame_armed (f : Frame) (s : State) : (placeFrame f s).armed = true := rfl
@[simp] theorem placeFrame_rx (f : Frame) (s : State) : (placeFrame f s).rx = f.cmd :: s.rx := rfl
@[simp] theorem placeFrame_now (f : Frame) (s : State) : (placeFrame f s).now = s.now := rfl
@[simp] theorem placeFrame_radio (f : Frame) (s : State) : (placeFrame f s).radio = s.radio := rfl
@[simp] theorem placeFrame_trace (f : Frame) (s : State) : (placeFrame f s).trace = s.trace := rfl

@[simp] theorem armFirst_buf (n : Nat) (s : State) : (armFirst n s).buf = s.buf := by unfold armFirst; split <;> rfl
@[simp] theorem armFirst_fill (n : Nat) (s : State) : (armFirst n s).fill = s.fill := by unfold armFirst; split <;> rfl
@[simp] theorem armFirst_rx (n : Nat) (s : State) : (armFirst n s).rx = s.rx := by unfold armFirst; split <;> rfl
@[simp] theorem armFirst_now (n : Nat) (s : State) : (armFirst n s).now = s.now := by unfold armFirst; split <;> rfl
@[simp] theorem armFirst_radio (n : Nat) (s : State) : (armFirst n s).radio = s.radio := by unfold armFirst; split <;> rfl
@[simp] theorem armFirst_trace (n : Nat) (s : State) : (armFirst n s).trace = s.trace := by unfold armFirst; split <;> rfl
@[simp] theorem armFirst_schedule (n : Nat) (s : State) : (armFirst n s).schedule = s.schedule := by unfold armFirst; split <;> rfl

@[simp] theorem armFirst_deadline (n : Nat) (s : State) :
    (armFirst n s).deadline = if s.fill = 0 then s.now + n else s.deadline := by
  unfold armFirst; split <;> rfl

@[simp] theorem armFirst_armed (n : Nat) (s : State) :
    (armFirst n s).armed = if s.fill = 0 then true else s.armed := by
  unfold armFirst; split <;> rfl

theorem applyInput_buf (x : TickInput) (s : State) :
    (applyInput x s).buf = if x.reset then resetBuf else s.buf := by
  unfold applyInput; split <;> rfl

theorem applyInput_fill (x : TickInput) (s : State) :
    (applyInput x s).fill = if x.reset then 0 else s.fill := by
  unfold applyInput; split <;> rfl

theorem applyInput_deadline (x : TickInput) (s : State) :
    (applyInput x s).deadline = if x.reset then 0 else s.deadline := by
  unfold applyInput; split <;> rfl

theorem applyInput_armed (x : TickInput) (s : State) :
    (applyInput x s).armed = if x.reset then false else s.armed := by
  unfold applyInput; split <;> rfl

theorem applyInput_rx (x : TickInput) (s : State) :
    (applyInput x s).rx = s.rx ++ x.arrivals := by
  unfold applyInput; split <;> rfl

theorem applyInput_now (x : TickInput) (s : State) :
    (applyInput x s).now = s.now + x.elapsed := by
  unfold applyInput; split <;> rfl

theorem applyInput_radio (x : TickInput) (s : State) :
    (applyInput x s).radio = x.radio.getD s.radio := by
  unfold applyInput; split <;> rfl

theorem applyInput_trace (x : TickInput) (s : State) :
    (applyInput x s).trace = s.trace := by
  unfold applyInput; split <;> rfl

theorem applyInput_schedule (x : TickInput) (s : State) :
    (applyInput x s).schedule = s.schedule := by
  unfold applyInput; split <;> rfl

end Sys2Proof.Machine
end

