-- ==== Sys2Proof/Laws/Ops.lean ====
section
/-! SUPPORT. One lemma per shared operation: the whole state after it. Later proofs cite these instead of unfolding
the operations. -/

namespace Sys2Proof.Machine

theorem setFrequency_eq (P : Params) (p1 p2 p3 p4 : Byte) (s : State) :
    setFrequency P p1 p2 p3 p4 s =
      { s with
        radio := radioAfter P (.setFrequencyHz (decodeFrequencyBCD p1 p2 p3 p4)) s.radio
        trace := s.trace ++
          [.call (.setFrequencyHz (decodeFrequencyBCD p1 p2 p3 p4)), .refresh, .write [replyAck]] } := by
  simp [setFrequency, txWrite, refresh, radioCall, emit]

theorem setSplit_eq (P : Params) (on : Bool) (s : State) :
    setSplit P on s =
      { s with radio := radioAfter P (.setSplitOn on) s.radio, trace := s.trace ++ [.call (.setSplitOn on)] } :=
  rfl

theorem readFreqAndMode_eq (s : State) :
    readFreqAndMode s =
      { s with
        trace := s.trace ++ [.get .getFrequencyHz, .get .getMode,
          .write (encodeFrequencyBCD s.radio.freqHz ++ [modeCode s.radio.mode])] } := by
  simp [readFreqAndMode, txWrite, radioGet, emit]

theorem operatingMode_eq (P : Params) (p1 : Byte) (s : State) :
    operatingMode P p1 s =
      let m := selectMode P.selectors p1
      let r := radioAfter P (.setMode m) s.radio
      { s with
        radio := radioAfter P (.setFrequencyHz r.freqHz) r
        trace := s.trace ++ [.call (.setMode m), .write [replyAck], .get .getFrequencyHz,
          .call (.setFrequencyHz r.freqHz), .refresh] } := by
  simp [operatingMode, repushFrequency, txWrite, radioGet, radioCall, refresh, emit]

theorem vfoToggle_eq (P : Params) (s : State) :
    vfoToggle P s =
      { s with
        radio := radioAfter P (.setActiveVfo (otherVfo s.radio.vfo)) s.radio
        trace := s.trace ++ [.get .getActiveVfo, .call (.setActiveVfo (otherVfo s.radio.vfo)),
          .write [replyAck], .refresh] } := by
  simp [vfoToggle, txWrite, radioGet, radioCall, refresh, emit]

theorem pttOn_busy (P : Params) (s : State) (h : s.radio.transmitting = true) :
    pttOn P s =
      { s with trace := s.trace ++ [.get .isTransmitting, .write [replyBusy], .refresh] } := by
  simp [pttOn, h, txWrite, radioGet, refresh, emit]

theorem pttOn_idle (P : Params) (s : State) (h : s.radio.transmitting = false) :
    pttOn P s =
      { s with
        radio := radioAfter P (.startTransmit P.txKindCat) (radioAfter P (.setCatTx true) s.radio)
        trace := s.trace ++ [.get .isTransmitting, .call (.setCatTx true), .call (.startTransmit P.txKindCat),
          .write [replyAck], .refresh] } := by
  simp [pttOn, h, txWrite, radioGet, radioCall, refresh, emit]

theorem pttOff_transmitting (P : Params) (s : State) (h : s.radio.transmitting = true) :
    pttOff P s =
      { s with
        radio := radioAfter P (.setCatTx false) (radioAfter P .stopTransmit s.radio)
        trace := s.trace ++ [.get .isTransmitting, .call .stopTransmit, .call (.setCatTx false),
          .write [replyAck], .refresh] } := by
  simp [pttOff, h, txWrite, radioGet, radioCall, refresh, emit]

theorem pttOff_idle (P : Params) (s : State) (h : s.radio.transmitting = false) :
    pttOff P s =
      { s with
        radio := radioAfter P (.setCatTx false) s.radio
        trace := s.trace ++ [.get .isTransmitting, .call (.setCatTx false), .write [replyAck], .refresh] } := by
  simp [pttOff, h, txWrite, radioGet, radioCall, refresh, emit]

theorem legacyRead_eq (P : Params) (a0 a1 : Byte) (s : State) :
    legacyRead P a0 a1 s =
      let t := legacyTable P.legacy a1 a0 s.radio
      { s with
        buf := ⟨t.2.1, t.2.2, s.buf.p3, s.buf.p4, s.buf.cmd⟩
        trace := s.trace ++ (t.1.map .get ++ [.write [t.2.1, t.2.2]]) } := by
  simp [legacyRead, setP1P2, radioGets, txWrite, emit]

theorem readRxStatus_eq (P : Params) (s : State) :
    readRxStatus P s = { s with trace := s.trace ++ [.write [rxStatusByte P.rx]] } :=
  rfl

theorem readTxStatus_eq (P : Params) (s : State) :
    readTxStatus P s =
      { s with
        trace := s.trace ++ [.get .isTransmitting, .get .isSplitOn,
          .write [txStatusByte P.tx s.radio.transmitting s.radio.split]] } := by
  simp [readTxStatus, txWrite, radioGet, emit]

theorem acknowledge_eq (s : State) :
    acknowledge s = { s with trace := s.trace ++ [.write [replyAck]] } :=
  rfl

/-- An empty tick is a return to `Idle` or nothing (R77, R78). -/
theorem emptyTick_cases (s : State) :
    (timedOut s = true ∧ emptyTick s = toIdle s) ∨ (timedOut s = false ∧ emptyTick s = s) := by
  unfold emptyTick
  cases timedOut s <;> simp

/-- The environment's move is nothing, or the head of the schedule applied. -/
theorem deliver_cases (s : State) :
    (s.schedule = [] ∧ deliver s = s) ∨
      ∃ x rest, s.schedule = x :: rest ∧ deliver s = applyInput x { s with schedule := rest } := by
  unfold deliver
  cases h : s.schedule with
  | nil => exact .inl ⟨rfl, rfl⟩
  | cons x rest => exact .inr ⟨x, rest, rfl, rfl⟩

/-- All a tick can be: an empty tick, a byte stored, or a frame completed (R82). -/
theorem tickBy_cases (timeout : Nat) (d : Dispatcher) (s : State) :
    (s.rx = [] ∧ tickBy timeout d s = .next (emptyTick s)) ∨
      (∃ b rest, s.rx = b :: rest ∧ s.fill ≠ 4 ∧
        tickBy timeout d s = .next (advance (takeByte timeout b rest s))) ∨
      ∃ b rest, s.rx = b :: rest ∧ s.fill = 4 ∧
        tickBy timeout d s = completeBy d (takeByte timeout b rest s) := by
  unfold tickBy
  cases h : s.rx with
  | nil => exact .inl ⟨rfl, rfl⟩
  | cons b rest =>
    by_cases h4 : s.fill = 4
    · exact .inr (.inr ⟨b, rest, rfl, h4, by simp [h4]⟩)
    · exact .inr (.inl ⟨b, rest, rfl, h4, by simp [h4]⟩)

/-- A dispatch that answers a next state ends in `Idle` (R81). -/
theorem completeBy_next (d : Dispatcher) (s t : State) (h : d s.buf (beginDispatch s) = .next t) :
    completeBy d s = .next (toIdle t) := by
  simp [completeBy, h, finishDispatch]

/-- A row of getters calls exactly those getters, and gives the pair for their answers. -/
theorem runProgram_askAll (gs : List Getter) (pair : List Answer → Byte × Byte) (r : Radio) :
    runProgram (askAll gs pair) r = (gs, pair (gs.map fun g => getterAnswer g r)) := by
  induction gs generalizing pair with
  | nil => rfl
  | cons g gs ih => simp [askAll, runProgram, ih]

@[simp] theorem takeByte_fill (n : Nat) (b : Byte) (rest : List Byte) (s : State) : (takeByte n b rest s).fill = s.fill := by
  simp [takeByte]

@[simp] theorem takeByte_buf (n : Nat) (b : Byte) (rest : List Byte) (s : State) :
    (takeByte n b rest s).buf = s.buf.set s.fill b := by
  simp [takeByte]

@[simp] theorem takeByte_rx (n : Nat) (b : Byte) (rest : List Byte) (s : State) : (takeByte n b rest s).rx = rest := rfl

@[simp] theorem takeByte_now (n : Nat) (b : Byte) (rest : List Byte) (s : State) : (takeByte n b rest s).now = s.now := by
  simp [takeByte]

@[simp] theorem takeByte_radio (n : Nat) (b : Byte) (rest : List Byte) (s : State) :
    (takeByte n b rest s).radio = s.radio := by
  simp [takeByte]

@[simp] theorem takeByte_trace (n : Nat) (b : Byte) (rest : List Byte) (s : State) :
    (takeByte n b rest s).trace = s.trace := by
  simp [takeByte]

@[simp] theorem takeByte_schedule (n : Nat) (b : Byte) (rest : List Byte) (s : State) :
    (takeByte n b rest s).schedule = s.schedule := by
  simp [takeByte]

theorem takeByte_deadline (n : Nat) (b : Byte) (rest : List Byte) (s : State) :
    (takeByte n b rest s).deadline = if s.fill = 0 then s.now + n else s.deadline := by
  simp [takeByte]

theorem takeByte_armed (n : Nat) (b : Byte) (rest : List Byte) (s : State) :
    (takeByte n b rest s).armed = if s.fill = 0 then true else s.armed := by
  simp [takeByte]

end Sys2Proof.Machine
end

