-- ==== Sys2Proof/Laws/PerInstr.lean ====
section
/-! SUPPORT. Facts about every instruction as syntax, one lemma per constructor. -/

namespace Sys2Proof.Laws.FrameLength

/-- "Every command has the same length", five bytes (R46), whatever the opcode parameters. -/
def Statement (i : Instr) : Prop := ∀ m : OpcodeMap, (encodeWith m i).bytes.length = 5

theorem setfreq (p1 p2 p3 p4 : Byte) : Statement (.setfreq p1 p2 p3 p4) := fun _ => rfl
theorem spliton (p1 p2 p3 p4 : Byte) : Statement (.spliton p1 p2 p3 p4) := fun _ => rfl
theorem splitoff (p1 p2 p3 p4 : Byte) : Statement (.splitoff p1 p2 p3 p4) := fun _ => rfl
theorem rdfreq (p1 p2 p3 p4 : Byte) : Statement (.rdfreq p1 p2 p3 p4) := fun _ => rfl
theorem mode (p1 p2 p3 p4 : Byte) : Statement (.mode p1 p2 p3 p4) := fun _ => rfl
theorem ptton (p1 p2 p3 p4 : Byte) : Statement (.ptton p1 p2 p3 p4) := fun _ => rfl
theorem pttoff (p1 p2 p3 p4 : Byte) : Statement (.pttoff p1 p2 p3 p4) := fun _ => rfl
theorem vfotog (p1 p2 p3 p4 : Byte) : Statement (.vfotog p1 p2 p3 p4) := fun _ => rfl
theorem rdlegacy (p1 p2 p3 p4 : Byte) : Statement (.rdlegacy p1 p2 p3 p4) := fun _ => rfl
theorem rdrxs (p1 p2 p3 p4 : Byte) : Statement (.rdrxs p1 p2 p3 p4) := fun _ => rfl
theorem rdtxs (p1 p2 p3 p4 : Byte) : Statement (.rdtxs p1 p2 p3 p4) := fun _ => rfl
theorem defaultOp (p1 p2 p3 p4 cmd : Byte) : Statement (.defaultOp p1 p2 p3 p4 cmd) := fun _ => rfl
theorem defaultX99 (p1 p2 p3 p4 : Byte) : Statement (.defaultX99 p1 p2 p3 p4) := fun _ => rfl
theorem lockon (p1 p2 p3 p4 : Byte) : Statement (.lockon p1 p2 p3 p4) := fun _ => rfl
theorem lockoff (p1 p2 p3 p4 : Byte) : Statement (.lockoff p1 p2 p3 p4) := fun _ => rfl
theorem claron (p1 p2 p3 p4 : Byte) : Statement (.claron p1 p2 p3 p4) := fun _ => rfl
theorem claroff (p1 p2 p3 p4 : Byte) : Statement (.claroff p1 p2 p3 p4) := fun _ => rfl
theorem clarfreq (p1 p2 p3 p4 : Byte) : Statement (.clarfreq p1 p2 p3 p4) := fun _ => rfl
theorem rptdir (p1 p2 p3 p4 : Byte) : Statement (.rptdir p1 p2 p3 p4) := fun _ => rfl
theorem rptfreq (p1 p2 p3 p4 : Byte) : Statement (.rptfreq p1 p2 p3 p4) := fun _ => rfl
theorem tonemode (p1 p2 p3 p4 : Byte) : Statement (.tonemode p1 p2 p3 p4) := fun _ => rfl
theorem ctcss (p1 p2 p3 p4 : Byte) : Statement (.ctcss p1 p2 p3 p4) := fun _ => rfl
theorem dcs (p1 p2 p3 p4 : Byte) : Statement (.dcs p1 p2 p3 p4) := fun _ => rfl
theorem pwron (p1 p2 p3 p4 : Byte) : Statement (.pwron p1 p2 p3 p4) := fun _ => rfl
theorem pwroff (p1 p2 p3 p4 : Byte) : Statement (.pwroff p1 p2 p3 p4) := fun _ => rfl

end Sys2Proof.Laws.FrameLength

namespace Sys2Proof.Laws.ParameterBytes

/-- The four parameter bytes of an instruction. -/
def parameters : Instr → List Byte
  | .setfreq p1 p2 p3 p4 => [p1, p2, p3, p4]
  | .spliton p1 p2 p3 p4 => [p1, p2, p3, p4]
  | .splitoff p1 p2 p3 p4 => [p1, p2, p3, p4]
  | .rdfreq p1 p2 p3 p4 => [p1, p2, p3, p4]
  | .mode p1 p2 p3 p4 => [p1, p2, p3, p4]
  | .ptton p1 p2 p3 p4 => [p1, p2, p3, p4]
  | .pttoff p1 p2 p3 p4 => [p1, p2, p3, p4]
  | .vfotog p1 p2 p3 p4 => [p1, p2, p3, p4]
  | .rdlegacy p1 p2 p3 p4 => [p1, p2, p3, p4]
  | .rdrxs p1 p2 p3 p4 => [p1, p2, p3, p4]
  | .rdtxs p1 p2 p3 p4 => [p1, p2, p3, p4]
  | .defaultOp p1 p2 p3 p4 _ => [p1, p2, p3, p4]
  | .defaultX99 p1 p2 p3 p4 => [p1, p2, p3, p4]
  | .lockon p1 p2 p3 p4 => [p1, p2, p3, p4]
  | .lockoff p1 p2 p3 p4 => [p1, p2, p3, p4]
  | .claron p1 p2 p3 p4 => [p1, p2, p3, p4]
  | .claroff p1 p2 p3 p4 => [p1, p2, p3, p4]
  | .clarfreq p1 p2 p3 p4 => [p1, p2, p3, p4]
  | .rptdir p1 p2 p3 p4 => [p1, p2, p3, p4]
  | .rptfreq p1 p2 p3 p4 => [p1, p2, p3, p4]
  | .tonemode p1 p2 p3 p4 => [p1, p2, p3, p4]
  | .ctcss p1 p2 p3 p4 => [p1, p2, p3, p4]
  | .dcs p1 p2 p3 p4 => [p1, p2, p3, p4]
  | .pwron p1 p2 p3 p4 => [p1, p2, p3, p4]
  | .pwroff p1 p2 p3 p4 => [p1, p2, p3, p4]

/-- "A parameter byte that a command ignores is still part of the frame" (R63): the encoder keeps all four, in
order of arrival. -/
def Statement (i : Instr) : Prop := ∀ m : OpcodeMap, (encodeWith m i).bytes.take 4 = parameters i

theorem setfreq (p1 p2 p3 p4 : Byte) : Statement (.setfreq p1 p2 p3 p4) := fun _ => rfl
theorem spliton (p1 p2 p3 p4 : Byte) : Statement (.spliton p1 p2 p3 p4) := fun _ => rfl
theorem splitoff (p1 p2 p3 p4 : Byte) : Statement (.splitoff p1 p2 p3 p4) := fun _ => rfl
theorem rdfreq (p1 p2 p3 p4 : Byte) : Statement (.rdfreq p1 p2 p3 p4) := fun _ => rfl
theorem mode (p1 p2 p3 p4 : Byte) : Statement (.mode p1 p2 p3 p4) := fun _ => rfl
theorem ptton (p1 p2 p3 p4 : Byte) : Statement (.ptton p1 p2 p3 p4) := fun _ => rfl
theorem pttoff (p1 p2 p3 p4 : Byte) : Statement (.pttoff p1 p2 p3 p4) := fun _ => rfl
theorem vfotog (p1 p2 p3 p4 : Byte) : Statement (.vfotog p1 p2 p3 p4) := fun _ => rfl
theorem rdlegacy (p1 p2 p3 p4 : Byte) : Statement (.rdlegacy p1 p2 p3 p4) := fun _ => rfl
theorem rdrxs (p1 p2 p3 p4 : Byte) : Statement (.rdrxs p1 p2 p3 p4) := fun _ => rfl
theorem rdtxs (p1 p2 p3 p4 : Byte) : Statement (.rdtxs p1 p2 p3 p4) := fun _ => rfl
theorem defaultOp (p1 p2 p3 p4 cmd : Byte) : Statement (.defaultOp p1 p2 p3 p4 cmd) := fun _ => rfl
theorem defaultX99 (p1 p2 p3 p4 : Byte) : Statement (.defaultX99 p1 p2 p3 p4) := fun _ => rfl
theorem lockon (p1 p2 p3 p4 : Byte) : Statement (.lockon p1 p2 p3 p4) := fun _ => rfl
theorem lockoff (p1 p2 p3 p4 : Byte) : Statement (.lockoff p1 p2 p3 p4) := fun _ => rfl
theorem claron (p1 p2 p3 p4 : Byte) : Statement (.claron p1 p2 p3 p4) := fun _ => rfl
theorem claroff (p1 p2 p3 p4 : Byte) : Statement (.claroff p1 p2 p3 p4) := fun _ => rfl
theorem clarfreq (p1 p2 p3 p4 : Byte) : Statement (.clarfreq p1 p2 p3 p4) := fun _ => rfl
theorem rptdir (p1 p2 p3 p4 : Byte) : Statement (.rptdir p1 p2 p3 p4) := fun _ => rfl
theorem rptfreq (p1 p2 p3 p4 : Byte) : Statement (.rptfreq p1 p2 p3 p4) := fun _ => rfl
theorem tonemode (p1 p2 p3 p4 : Byte) : Statement (.tonemode p1 p2 p3 p4) := fun _ => rfl
theorem ctcss (p1 p2 p3 p4 : Byte) : Statement (.ctcss p1 p2 p3 p4) := fun _ => rfl
theorem dcs (p1 p2 p3 p4 : Byte) : Statement (.dcs p1 p2 p3 p4) := fun _ => rfl
theorem pwron (p1 p2 p3 p4 : Byte) : Statement (.pwron p1 p2 p3 p4) := fun _ => rfl
theorem pwroff (p1 p2 p3 p4 : Byte) : Statement (.pwroff p1 p2 p3 p4) := fun _ => rfl

end Sys2Proof.Laws.ParameterBytes
end

