-- ==== Sys2Proof/Laws/Trace.lean ====
section
/-! SUPPORT. What the views of a trace see of a row of getter calls. -/

namespace Sys2Proof.Machine

theorem replayRadio_append (P : Params) (es fs : List Event) (r : Radio) :
    replayRadio P (es ++ fs) r = replayRadio P fs (replayRadio P es r) := by
  simp [replayRadio, List.filterMap_append]

theorem flatMap_bytes_gets (gs : List Getter) : (gs.map Event.get).flatMap Event.bytes = [] := by
  induction gs with
  | nil => rfl
  | cons g gs ih => exact ih

theorem filterMap_eventFrame_gets (gs : List Getter) : (gs.map Event.get).filterMap eventFrame = [] := by
  induction gs with
  | nil => rfl
  | cons g gs ih => exact ih

theorem filterMap_eventCall_gets (gs : List Getter) : (gs.map Event.get).filterMap eventCall = [] := by
  induction gs with
  | nil => rfl
  | cons g gs ih => exact ih

theorem filterMap_eventCatTx_gets (gs : List Getter) : (gs.map Event.get).filterMap eventCatTx = [] := by
  induction gs with
  | nil => rfl
  | cons g gs ih => exact ih

theorem countP_isWrite_gets (gs : List Getter) : (gs.map Event.get).countP isWrite = 0 := by
  rw [List.countP_eq_zero]
  intro e he
  obtain ⟨g, -, rfl⟩ := List.mem_map.1 he
  simp [isWrite]

theorem count_refresh_gets (gs : List Getter) : (gs.map Event.get).count .refresh = 0 := by
  rw [List.count_eq_zero]
  intro he
  obtain ⟨g, -, h⟩ := List.mem_map.1 he
  exact absurd h (by simp)

theorem dispatched_append (s t : State) (es : List Event) (h : t.trace = s.trace ++ es) :
    t.dispatched = s.dispatched ++ es.filterMap eventFrame := by
  simp [State.dispatched, h]

theorem replyStream_append (s t : State) (es : List Event) (h : t.trace = s.trace ++ es) :
    t.replyStream = s.replyStream ++ es.flatMap Event.bytes := by
  simp [State.replyStream, h]

end Sys2Proof.Machine
end

