-- ==== Sys2Proof/Tests/Slice0.lean ====
section
/-! SUPPORT. Tests. Expected values come from spec/95_test_vectors.md and the encodings of R50 and the opcode table, named
beside each group; witnesses show that the hypotheses of the statements can be met together. -/

namespace Sys2Proof.Tests

open Sys2Proof Sys2Proof.Machine

/-! ### WellFormed refuses each kind of ill-formed term -/

theorem test_ill_default_with_handled_opcode : (Instr.defaultOp 0 0 0 0 0x01).wellFormed = false := by decide
theorem test_ill_default_with_row_opcode : (Instr.defaultOp 0 0 0 0 0x99).wellFormed = false := by decide
theorem test_ill_instance_collides :
    (Instr.lockon 0 0 0 0).wellFormedFor { defaultOpcodes with setFreq := 0x00 } = false := by decide
theorem test_well_formed_default : (Instr.defaultOp 0 0 0 0 0x70).wellFormed = true := by decide

/-! ### Decoding: a word of every row, written out from the opcode table (P1 P2 P3 P4 CMD, the first byte leftmost) -/

theorem test_decode_setfreq : decodeTableWord 40 0x0142345601 = some (.setfreq 0x01 0x42 0x34 0x56) := by decide
theorem test_decode_spliton : decodeTableWord 40 0xAABBCCDD02 = some (.spliton 0xAA 0xBB 0xCC 0xDD) := by decide
theorem test_decode_splitoff : decodeTableWord 40 0x0000000082 = some (.splitoff 0 0 0 0) := by decide
theorem test_decode_rdfreq : decodeTableWord 40 0x0000000003 = some (.rdfreq 0 0 0 0) := by decide
theorem test_decode_mode : decodeTableWord 40 0x0400000007 = some (.mode 0x04 0 0 0) := by decide
theorem test_decode_ptton : decodeTableWord 40 0x9914207408 = some (.ptton 0x99 0x14 0x20 0x74) := by decide
theorem test_decode_pttoff : decodeTableWord 40 0x0000000088 = some (.pttoff 0 0 0 0) := by decide
theorem test_decode_vfotog : decodeTableWord 40 0x0000000081 = some (.vfotog 0 0 0 0) := by decide
theorem test_decode_rdlegacy : decodeTableWord 40 0x11223344BB = some (.rdlegacy 0x11 0x22 0x33 0x44) := by decide
theorem test_decode_rdrxs : decodeTableWord 40 0x00000000E7 = some (.rdrxs 0 0 0 0) := by decide
theorem test_decode_rdtxs : decodeTableWord 40 0x00000000F7 = some (.rdtxs 0 0 0 0) := by decide
theorem test_decode_default : decodeTableWord 40 0x0142340070 = some (.defaultOp 0x01 0x42 0x34 0 0x70) := by decide
theorem test_decode_x99 : decodeTableWord 40 0x1234567899 = some (.defaultX99 0x12 0x34 0x56 0x78) := by decide
theorem test_decode_lockon : decodeTableWord 40 0x0000000000 = some (.lockon 0 0 0 0) := by decide
theorem test_decode_lockoff : decodeTableWord 40 0x0000000080 = some (.lockoff 0 0 0 0) := by decide
theorem test_decode_claron : decodeTableWord 40 0x0000000005 = some (.claron 0 0 0 0) := by decide
theorem test_decode_claroff : decodeTableWord 40 0x0000000085 = some (.claroff 0 0 0 0) := by decide
theorem test_decode_clarfreq : decodeTableWord 40 0x00000000F5 = some (.clarfreq 0 0 0 0) := by decide
theorem test_decode_rptdir : decodeTableWord 40 0x0000000009 = some (.rptdir 0 0 0 0) := by decide
theorem test_decode_rptfreq : decodeTableWord 40 0x00000000F9 = some (.rptfreq 0 0 0 0) := by decide
theorem test_decode_tonemode : decodeTableWord 40 0x000000000A = some (.tonemode 0 0 0 0) := by decide
theorem test_decode_ctcss : decodeTableWord 40 0x000000000B = some (.ctcss 0 0 0 0) := by decide
theorem test_decode_dcs : decodeTableWord 40 0x000000000C = some (.dcs 0 0 0 0) := by decide
theorem test_decode_pwron : decodeTableWord 40 0x000000000F = some (.pwron 0 0 0 0) := by decide
theorem test_decode_pwroff : decodeTableWord 40 0x010203048F = some (.pwroff 1 2 3 4) := by decide
/-- Short table words: only the opcode byte is given, the parameters are 0. -/
theorem test_decode_short_word : decodeTableWord 8 0xBB = some (.rdlegacy 0 0 0 0) := by decide
theorem test_decode_wide_word_refused : decodeTableWord 48 0x01 = none := by decide
theorem test_decode_partial_frame :
    (decodeBytes [0x01, 0x42, 0x34]).toOption = none ∧ (decodeBytes [1, 2, 3, 4, 5, 6]).toOption = none := by decide

/-! ### The codec: V-C1 to V-C27, V-N1 to V-N11, V-S1 to V-S6 -/

theorem test_digits : digitsOf 14234560 9 = [0, 6, 5, 4, 3, 2, 4, 1, 0] ∧ digitsOf 7 3 = [7, 0, 0] ∧
    digitsOf 12345 3 = [5, 4, 3] ∧ digitsOf 0 4 = [0, 0, 0, 0] ∧ digitsOf 99 0 = [] := by decide
theorem test_encode_frequency : encodeFrequencyBCD 19 = [0x00, 0x00, 0x00, 0x01] ∧
    encodeFrequencyBCD 14234567 = [0x01, 0x42, 0x34, 0x56] ∧
    encodeFrequencyBCD 439987650 = [0x43, 0x99, 0x87, 0x65] ∧
    encodeFrequencyBCD 1234567890 = [0x23, 0x45, 0x67, 0x89] ∧
    encodeFrequencyBCD 4294967295 = [0x29, 0x49, 0x67, 0x29] := by decide
theorem test_decode_frequency : decodeFrequencyBCD 0x99 0x99 0x99 0x99 = 999999990 ∧
    decodeFrequencyBCD 0x00 0x00 0x00 0x0F = 150 ∧ decodeFrequencyBCD 0xFF 0xFF 0xFF 0xFF = 1666666650 ∧
    decodeFrequencyBCD 0xAB 0xCD 0xEF 0x01 = 1123455010 := by decide
theorem test_nibbles : getHighNibble 0xFF = 0xF ∧ setHighNibble 0x0F 0 = 0x0F ∧ setLowNibble 0xF0 0xF = 0xFF ∧
    setHighNibble 0x42 0x17 = 0x72 ∧ setLowNibble 0x42 0x1F = 0x4F ∧
    setHighNibble (setLowNibble 0x00 2) 4 = 0x42 := by decide
theorem test_status_bytes : buildRxStatus defaultRxLayout 9 true false false false = 0x29 ∧
    txStatusByte defaultTxLayout false false = 0xAF ∧ txStatusByte defaultTxLayout false true = 0x8F ∧
    txStatusByte defaultTxLayout true false = 0x2F ∧ txStatusByte defaultTxLayout true true = 0x0F ∧
    buildRxStatus ⟨4, 7, 6, 5⟩ 9 true false false false = 0x19 := by decide

/-! ### The commands, with the reference collaborator of decision D18 (a plain store), which the model does not
build in, and a small legacy table: V-D1 to V-D29, V-L1 to V-L5 -/

/-- A table with one entry that checks `P1`, one derived from the split flag, and one from two items of the radio (shapes of
R109, R110; the numbers are the test's own or those the spec recollects in G5 and does not state). -/
def refLegacy : LegacyTable where
  vfoFixed := 0x80
  vfoR1 := 0x00
  entry a1 :=
    if a1 = 0x45 then some ⟨some 0x03, legacyKindProgram .fixed fun _ => (0x00, 0xD0)⟩
    else if a1 = 0x7A then some ⟨none, legacyKindProgram .split fun a =>
      if a = [.flag true] then (0xFF, 0x00) else (0x7F, 0x00)⟩
    else if a1 = 0x7C then some ⟨none, askAll [.isSplitOn, .getMode] fun a =>
      (if a.head? = some (.flag true) then 0x01 else 0x00, if a.getLast? = some (.mode .usb) then 0x01 else 0x00)⟩
    else none

def refParams : Params := ⟨defaultOpcodes, 500, defaultRxLayout, defaultTxLayout, defaultSelectors, refLegacy, 7, referenceReact⟩

/-- A state at reset but for its radio. -/
def withRadio (r : Radio) : State := { State.reset with radio := r }

/-- The radio of the spec's programs P1 to P4. -/
def radioUsb : Radio := { resetRadio with freqHz := 14234567, mode := .usb }

theorem test_setfreq_order : (setFrequency refParams 0x01 0x42 0x34 0x56 State.reset).trace =
    [.call (.setFrequencyHz 14234560), .refresh, .write [0x00]] := by decide
theorem test_setfreq_radio : (setFrequency refParams 0x01 0x42 0x34 0x56 State.reset).radio.freqHz = 14234560 := by decide
theorem test_spliton : (setSplit refParams true State.reset).radio.split = true ∧
    (setSplit refParams true State.reset).replyStream = [] := by decide
theorem test_splitoff : (setSplit refParams false (withRadio { radioUsb with split := true })).radio.split = false ∧
    (setSplit refParams false State.reset).replyStream = [] := by decide
theorem test_rdfreq_usb : (readFreqAndMode (withRadio radioUsb)).replyStream = [0x01, 0x42, 0x34, 0x56, 0x01] := by decide
theorem test_rdfreq_other :
    (readFreqAndMode (withRadio { radioUsb with mode := .other, freqHz := 7074000 })).replyStream =
      [0x00, 0x70, 0x74, 0x00, 0x00] := by decide
theorem test_mode_order : (operatingMode refParams 0x03 (withRadio radioUsb)).trace =
    [.call (.setMode .lsb), .write [0x00], .get .getFrequencyHz, .call (.setFrequencyHz 14234567), .refresh] := by decide
theorem test_mode_usb : (operatingMode refParams 0xFF State.reset).radio.mode = .usb ∧
    (operatingMode refParams 0x00 (withRadio radioUsb)).radio.mode = .lsb := by decide
theorem test_ptton_idle : (pttOn refParams State.reset).trace =
    [.get .isTransmitting, .call (.setCatTx true), .call (.startTransmit 7), .write [0x00], .refresh] := by decide
theorem test_ptton_busy : (pttOn refParams (withRadio { radioUsb with transmitting := true })).trace =
    [.get .isTransmitting, .write [0xF0], .refresh] := by decide
theorem test_pttoff_transmitting :
    (pttOff refParams (withRadio { radioUsb with transmitting := true, catTx := true })).trace =
      [.get .isTransmitting, .call .stopTransmit, .call (.setCatTx false), .write [0x00], .refresh] := by decide
theorem test_pttoff_idle : (pttOff refParams State.reset).trace =
    [.get .isTransmitting, .call (.setCatTx false), .write [0x00], .refresh] := by decide
theorem test_vfotog_a : (vfoToggle refParams State.reset).trace =
    [.get .getActiveVfo, .call (.setActiveVfo .b), .write [0x00], .refresh] := by decide
theorem test_vfotog_b : (vfoToggle refParams (withRadio { radioUsb with vfo := .b })).radio.vfo = .a := by decide
theorem test_rdlegacy_vfo :
    (legacyRead refParams 0x77 0x55 (withRadio { radioUsb with vfo := .b })).replyStream = [0x81, 0x00] ∧
      (legacyRead refParams 0x00 0x55 State.reset).replyStream = [0x80, 0x00] := by decide
theorem test_rdlegacy_entries :
    (legacyRead refParams 0x11 0x22 State.reset).trace = [.write [0x00, 0x00]] ∧
      (legacyRead refParams 0x03 0x45 State.reset).replyStream = [0x00, 0xD0] ∧
      (legacyRead refParams 0x04 0x45 State.reset).replyStream = [0x00, 0x00] ∧
      (legacyRead refParams 0x00 0x7A State.reset).trace = [.get .isSplitOn, .write [0x7F, 0x00]] := by decide
/-- R109, R106: an entry may read two items. -/
theorem test_rdlegacy_two_items : (legacyRead refParams 0x00 0x7C (withRadio { radioUsb with split := true })).trace =
    [.get .isSplitOn, .get .getMode, .write [0x01, 0x01]] := by decide
theorem test_rdrxs : (readRxStatus refParams State.reset).trace = [.write [0x29]] := by decide
theorem test_rdtxs : (readTxStatus refParams (withRadio { radioUsb with split := true })).trace =
    [.get .isTransmitting, .get .isSplitOn, .write [0x8F]] := by decide
theorem test_default : (acknowledge State.reset).trace = [.write [0x00]] := by decide

/-! ### One step -/

/-- The state after a step that has one; the state itself otherwise. -/
def after (s : State) : State :=
  match step s with
  | .next t => t
  | .fault _ => s
  | .refused _ => s

/-- A partial frame of three bytes, taken from time 100 on, with one environment move to come (V-F3, V-F4). -/
def partialFrame (x : TickInput) : State :=
  { State.reset with
    buf := ⟨0x01, 0x42, 0x34, 0, 0⟩, fill := 3, armed := true, deadline := 600, now := 102, schedule := [x] }

/-- V-F1. -/
theorem test_empty_tick_in_idle : after State.reset = State.reset := by decide
/-- V-F3: `600 > 600` is false. -/
theorem test_tick_at_deadline_keeps : (after (partialFrame ⟨false, 498, [], none⟩)).fill = 3 := by decide
/-- V-F4: the empty tick at 601 is a timeout, without any reply. -/
theorem test_tick_past_deadline_drops :
    (after (partialFrame ⟨false, 499, [], none⟩)).fill = 0 ∧
      (after (partialFrame ⟨false, 499, [], none⟩)).armed = false ∧
      (after (partialFrame ⟨false, 499, [], none⟩)).trace = [] := by decide
/-- V-F6: a byte tick does not look at the deadline. -/
theorem test_late_byte_is_stored :
    (after (partialFrame ⟨false, 9999, [0x56], none⟩)).fill = 4 ∧
      (after (partialFrame ⟨false, 9999, [0x56], none⟩)).deadline = 600 := by decide
/-- V-F4: the first byte at 602 arms 1102. -/
theorem test_first_byte_arms :
    (after { State.reset with now := 602, rx := [0x56, 0x01] }).deadline = 1102 ∧
      (after { State.reset with now := 602, rx := [0x56, 0x01] }).fill = 1 ∧
      (after { State.reset with now := 602, rx := [0x56, 0x01] }).rx = [0x01] := by decide
/-- V-F11. -/
theorem test_reset_mid_frame : (after (partialFrame ⟨true, 0, [], none⟩)).fill = 0 ∧
    (after (partialFrame ⟨true, 0, [], none⟩)).trace = [] := by decide
/-- V-D22 as the first step after reset. -/
theorem test_rdrxs_runs_after_reset :
    (after (State.reset.withFetchWord 40 0x00000000E7)).replyStream = [0x29] ∧
      (after (State.reset.withFetchWord 40 0x00000000E7)).fill = 0 := by decide
/-- X3: the events of the frame `01 42 34 56 01`. -/
theorem test_setfreq_runs_after_reset :
    (after (State.reset.withFetchWord 40 0x0142345601)).trace =
      [.dispatch ⟨0x01, 0x42, 0x34, 0x56, 0x01⟩, .call (.setFrequencyHz 14234560), .refresh, .write [0x00]] := by decide
/-- V-L5 in part: `buf` after a legacy read keeps `P3`, `P4` and `0xBB`. -/
theorem test_legacy_keeps_the_rest_of_buf :
    (after (State.reset.withFetchWord 40 0x11553344BB)).buf.p3 = 0x33 ∧
      (after (State.reset.withFetchWord 40 0x11553344BB)).buf.cmd = 0xBB := by decide

/-! ### Witnesses: the hypotheses of each statement, met together -/

/-- A step's or an instruction's outcome is a next state, and it is `t`. -/
abbrev stepsTo (s t : State) : Prop := step s = .next t

/-- Idle with one whole frame (`VFOTOG`) and one byte more waiting. -/
def fiveWaiting : State := { State.reset with rx := [0x00, 0x00, 0x00, 0x00, 0x81, 0x07] }

/-- A frame that misses its last byte, the given opcode waiting. -/
def oneMissing (cmd : Byte) : State :=
  { State.reset with buf := ⟨1, 2, 3, 4, 5⟩, fill := 4, armed := true, deadline := 500, rx := [cmd] }

/-- A partial frame whose `fill` is `k`, one byte waiting. -/
def fillingAt (k : Fin 5) (armed : Bool) (rx : List Byte) : State :=
  { State.reset with fill := k, armed := armed, deadline := 10, now := 11, rx := rx }

theorem witness_DecodeOfEncodeIsTheInstruction : defaultOpcodes.Valid ∧
    (Instr.setfreq 1 2 3 4).wellFormedFor defaultOpcodes = true ∧
    (Instr.defaultOp 1 2 3 4 0x70).wellFormedFor defaultOpcodes = true ∧
    (Instr.pwroff 1 2 3 4).wellFormedFor defaultOpcodes = true := by decide
theorem witness_EachHandledOpcodeSelectsItsCommand : defaultOpcodes.Valid := by decide
theorem witness_EveryOtherOpcodeIsAcknowledged :
    (0x00 : Byte) ∉ defaultOpcodes.handled ∧ (0xFF : Byte) ∉ defaultOpcodes.handled := by decide
theorem witness_IgnoredParametersChangeNothing : defaultOpcodes.Valid ∧
    (0x02 : Byte) ≠ defaultOpcodes.setFreq ∧ (0x02 : Byte) ≠ defaultOpcodes.mode ∧ (0x02 : Byte) ≠ opLegacy := by decide
theorem witness_DigitsOfANumber : 1 < 3 ∧ 7 < 10 ^ 1 ∧ (7 : Nat) ∈ digitsOf 7 3 := by decide
theorem witness_EncodeFrequencyPacksDigitPairs :
    (19 : Freq).toNat % 10 ^ 9 / 10 = (10 : Freq).toNat % 10 ^ 9 / 10 := by decide
theorem witness_FrequencyRoundTrips : (999999990 : Freq).toNat ≤ 999999990 ∧ (999999990 : Freq).toNat % 10 = 0 ∧
    (999999999 : Freq).toNat < 10 ^ 9 ∧
    ∀ b ∈ ([0x99, 0x00, 0x09, 0x90] : List Byte), (getHighNibble b).toNat ≤ 9 ∧ (getLowNibble b).toNat ≤ 9 := by decide
theorem witness_NibbleHelpersKeepTheOtherNibble : (0x0F : Byte).toNat ≤ 15 := by decide
theorem witness_RxStatusHoldsMeterAndFlags : (⟨4, 7, 6, 5⟩ : RxLayout).Valid := by decide
theorem witness_RxStatusReplyHasOneFlag :
    (⟨7, 4, 6, 5⟩ : RxLayout).Valid ∧ 4 ≤ 4 ∧ 7 ≤ 7 := by decide
theorem witness_TxStatusHoldsPowerAndFlags : (⟨4, 7, 6, 5⟩ : TxLayout).Valid := by decide
theorem witness_EnvironmentLeavesTheFramerAlone :
    ∀ x ∈ (partialFrame ⟨false, 1, [1], none⟩).schedule.head?, x.reset = false := by decide
theorem witness_ResetMidFrameDropsItSilently : ∃ x rest, (partialFrame ⟨true, 5, [], none⟩).schedule = x :: rest ∧
    x.reset = true ∧ (partialFrame ⟨true, 5, [], none⟩).rx = [] ∧ x.arrivals = [] := ⟨_, _, rfl, rfl, rfl, rfl⟩
theorem witness_EmptyTickBeforeTheDeadlineDoesNothing :
    (deliver State.reset).rx = [] ∧ (deliver State.reset).armed = false ∧
      (deliver (partialFrame ⟨false, 498, [], none⟩)).rx = [] ∧
      (deliver (partialFrame ⟨false, 498, [], none⟩)).now ≤
        (deliver (partialFrame ⟨false, 498, [], none⟩)).deadline := by decide
theorem witness_EmptyTickAfterTheDeadlineDropsTheFrame :
    (deliver (partialFrame ⟨false, 499, [], none⟩)).rx = [] ∧
      (deliver (partialFrame ⟨false, 499, [], none⟩)).armed = true ∧
      (deliver (partialFrame ⟨false, 499, [], none⟩)).deadline <
        (deliver (partialFrame ⟨false, 499, [], none⟩)).now := by decide
theorem witness_ByteTickStoresTheByte : ∀ k : Fin 5,
    (deliver (fillingAt k true [0x81])).rx = [0x81] ∧ (deliver (fillingAt k true [0x81])).fill = k := by decide
theorem witness_FifthByteRunsTheDecodedInstruction :
    (deliver (oneMissing 0x81)).rx = [0x81] ∧ (deliver (oneMissing 0x81)).fill = 4 ∧
      ∃ t, exec (decode ⟨1, 2, 3, 4, 0x81⟩)
        { deliver (oneMissing 0x81) with
          rx := [], buf := ⟨1, 2, 3, 4, 0x81⟩
          trace := (deliver (oneMissing 0x81)).trace ++ [.dispatch ⟨1, 2, 3, 4, 0x81⟩] } = .next t :=
  ⟨rfl, rfl, _, rfl⟩
/-- An empty and a byte tick in `Idle`; an empty tick in `Filling`, too early and too late; a byte tick there; the
fifth byte. -/
theorem witness_FillTransitionTable :
    (∃ t, stepsTo State.reset t ∧ (deliver State.reset).rx = [] ∧ (deliver State.reset).fill = 0 ∧
      (deliver State.reset).armed = false) ∧
    (∃ t, stepsTo fiveWaiting t ∧ (deliver fiveWaiting).rx ≠ [] ∧ (deliver fiveWaiting).fill = 0) ∧
    (∃ t, stepsTo (fillingAt 4 false []) t ∧ (deliver (fillingAt 4 false [])).fill ≠ 0 ∧
      timedOut (deliver (fillingAt 4 false [])) = false) ∧
    (∃ t, stepsTo (fillingAt 1 true []) t ∧ (deliver (fillingAt 1 true [])).fill ≠ 0 ∧
      timedOut (deliver (fillingAt 1 true [])) = true) ∧
    (∃ t, stepsTo (fillingAt 3 true [1]) t ∧ (deliver (fillingAt 3 true [1])).rx ≠ [] ∧
      (deliver (fillingAt 3 true [1])).fill ≠ 0 ∧ (deliver (fillingAt 3 true [1])).fill ≠ 4) ∧
    ∃ t, stepsTo (oneMissing 0x02) t ∧ (deliver (oneMissing 0x02)).rx ≠ [] ∧ (deliver (oneMissing 0x02)).fill = 4 :=
  ⟨⟨_, rfl, by decide⟩, ⟨_, rfl, by decide⟩, ⟨_, rfl, by decide⟩, ⟨_, rfl, by decide⟩, ⟨_, rfl, by decide⟩,
    ⟨_, rfl, by decide⟩⟩
theorem witness_DispatchExactlyAtTheFifthByte :
    (∃ t, stepsTo (oneMissing 0x02) t) ∧ ∃ t, stepsTo State.reset t := ⟨⟨_, rfl⟩, ⟨_, rfl⟩⟩
theorem witness_OneByteATick : (∃ t, stepsTo fiveWaiting t) ∧ fiveWaiting.fill = 0 ∧ NoReset fiveWaiting ∧
    fiveWaiting.rx = 0x00 :: 0x00 :: 0x00 :: 0x00 :: 0x81 :: [0x07] :=
  ⟨⟨_, rfl⟩, rfl, by simp [NoReset, fiveWaiting, State.reset], rfl⟩
theorem witness_DeadlineIsStrict :
    (fillingAt 2 true []).schedule = [] ∧ (fillingAt 2 true []).rx = [] ∧ (fillingAt 2 true []).armed = true ∧
      (fillingAt 2 true []).now = (fillingAt 2 true []).deadline + 1 ∧
      ({ fillingAt 2 true [] with now := 10 } : State).now = (fillingAt 2 true []).deadline := by decide
theorem witness_ByteTickIgnoresTheDeadline : ((oneMissing 0x02).rx ≠ [] ∧ (oneMissing 0x02).fill ≠ 0 ∧
    ∃ t, tick (oneMissing 0x02) = .next t) ∧ fiveWaiting.rx ≠ [] ∧ fiveWaiting.fill = 0 :=
  ⟨⟨by decide, by decide, _, rfl⟩, by decide, rfl⟩
theorem witness_FramesAreFoundByCounting : fiveWaiting.fill = 0 ∧ NoReset fiveWaiting ∧
    fiveWaiting.rx.length = 6 := ⟨rfl, by simp [NoReset, fiveWaiting, State.reset], rfl⟩
/-- A stale partial frame; an idle gap; then five bytes at once. -/
theorem witness_StaleBytesAreDroppedByAnEmptyTick : ∃ (s : State) (x y : TickInput) (rest : List TickInput),
    s.schedule = x :: y :: rest ∧ NoReset s ∧ s.rx = [] ∧ x.arrivals = [] ∧ s.armed = true ∧
      s.deadline < s.now + x.elapsed ∧ y.arrivals = [0x00, 0x70, 0x74, 0x00, 0x01] :=
  ⟨{ partialFrame ⟨false, 499, [], none⟩ with
      schedule := [⟨false, 499, [], none⟩, ⟨false, 1, [0x00, 0x70, 0x74, 0x00, 0x01], none⟩] },
    _, _, _, rfl, by simp [NoReset], rfl, rfl, rfl, by decide, rfl⟩
theorem witness_StaleBytesJoinWithoutAnEmptyTick :
    (fillingAt 3 true [0x00, 0x70]).fill = 3 ∧ NoReset (fillingAt 3 true [0x00, 0x70]) ∧
      (fillingAt 3 true [0x00, 0x70]).rx = [0x00, 0x70] :=
  ⟨rfl, by simp [NoReset, fillingAt, State.reset], rfl⟩
theorem witness_EveryStepKeepsTheInvariant : (Inv params (oneMissing 0x02) ∧ ∃ t, stepsTo (oneMissing 0x02) t) ∧
    Inv refParams (oneMissing 0x02) ∧ ∃ t, stepWith refParams (oneMissing 0x02) = .next t :=
  ⟨⟨⟨rfl, by decide, by simp [oneMissing, State.reset], by decide⟩, _, rfl⟩,
    ⟨rfl, by decide, by simp [oneMissing, State.reset], by decide⟩, _, rfl⟩
/-- Another legal choice of parameters: `VFOTOG` at 0x55, the selector 0x02, a timeout of 9 ms. -/
def otherParams : Params :=
  { refParams with
    opcodes := { defaultOpcodes with vfoToggle := 0x55 }, selectors := ⟨0x02, 0x03⟩, timeoutMs := 9 }
theorem witness_StepForEveryParameterChoice : otherParams.Valid ∧
    ((deliver State.reset).rx = [] ∧ (deliver (partialFrame ⟨false, 499, [], none⟩)).rx = []) ∧
    ∀ k : Fin 5, (deliver (fillingAt k true [0x55])).rx = [0x55] ∧ (deliver (fillingAt k true [0x55])).fill = k := by
  decide
/-- R30: with other parameters the same frame is another command, and the deadline another. -/
theorem test_other_parameters :
    dispatchWith otherParams ⟨0, 0, 0, 0, 0x55⟩ State.reset = .next (vfoToggle otherParams State.reset) ∧
      dispatchWith otherParams ⟨0, 0, 0, 0, 0x81⟩ State.reset = .next (acknowledge State.reset) := ⟨rfl, rfl⟩
theorem witness_TraceOnlyGrows : ∃ t, stepsTo (oneMissing 0xF7) t := ⟨_, rfl⟩
/-- A tick through each of the four states. -/
theorem witness_TransientStatesEndInIdle :
    (∃ t, stepsTo (fillingAt 4 true []) t ∧ tickPhase (deliver (fillingAt 4 true [])) = .timedOut) ∧
    (∃ t, stepsTo (oneMissing 0x99) t ∧ tickPhase (deliver (oneMissing 0x99)) = .complete) ∧
    (∃ t, stepsTo (fillingAt 3 true [1]) t ∧ tickPhase (deliver (fillingAt 3 true [1])) = .filling) ∧
    ∃ t, stepsTo State.reset t ∧ tickPhase (deliver State.reset) = .idle :=
  ⟨⟨_, rfl, by decide⟩, ⟨_, rfl, by decide⟩, ⟨_, rfl, by decide⟩, ⟨_, rfl, by decide⟩⟩
theorem witness_command_encodings : defaultOpcodes.Valid := by decide
theorem witness_reference_radio : refParams.react = referenceReact ∧ (withRadio radioUsb).radio.split = false ∧
    (withRadio radioUsb).radio.transmitting = false := ⟨rfl, rfl, rfl⟩
theorem witness_OperatingModeEffect : ∃ (mode : Mode) (r : Radio),
    mode = (if (0x03 : Byte) = params.selectors.lsb0 ∨ (0x03 : Byte) = params.selectors.lsb1 then .lsb else .usb) ∧
      r = radioAfter params (.setMode mode) State.reset.radio := ⟨_, _, rfl, rfl⟩
theorem witness_PttOnEffect : State.reset.radio.transmitting = false ∧
    (withRadio { radioUsb with transmitting := true }).radio.transmitting = true := by decide
theorem witness_PttOffEffect : State.reset.radio.transmitting = false ∧
    (withRadio { radioUsb with transmitting := true }).radio.transmitting = true := by decide
theorem witness_VfoToggleEffect : ∃ v : Vfo, v = (if State.reset.radio.vfo = .a then .b else .a) := ⟨_, rfl⟩
theorem witness_ReadLegacyEffect : ∃ gs r0 r1, legacyTable params.legacy 0x55 0x00 State.reset.radio = (gs, r0, r1) :=
  ⟨_, _, _, rfl⟩
theorem witness_UnrecognisedLegacyAddressReadsZero :
    (0x22 : Byte) ≠ 0x55 ∧ refLegacy.entry 0x22 = none ∧
      (∃ e low, refLegacy.entry 0x45 = some e ∧ e.expectP1 = some low ∧ (0x04 : Byte) ≠ low) ∧
      (∃ e, refLegacy.entry 0x45 = some e ∧ e.expectP1 = some 0x03) ∧
      ∃ e, refLegacy.entry 0x7A = some e ∧ e.expectP1 = none :=
  ⟨by decide, rfl, ⟨_, _, rfl, rfl, by decide⟩, ⟨_, rfl, rfl⟩, _, rfl, rfl⟩
/-- For each kind, a table with an entry of it; the check of `P1` absent, and met. -/
theorem witness_LegacyEntriesOfEachKindReadWhatTheyNeed (k : LegacyKind) (pair : List Answer → Byte × Byte) :
    ∃ T : LegacyTable, (0x60 : Byte) ≠ 0x55 ∧ T.entry 0x60 = some ⟨none, legacyKindProgram k pair⟩ ∧
      (0x45 : Byte) ≠ 0x55 ∧ T.entry 0x45 = some ⟨some 0x03, legacyKindProgram k pair⟩ :=
  ⟨⟨0, 0, fun a => if a = 0x60 then some ⟨none, legacyKindProgram k pair⟩
    else some ⟨some 0x03, legacyKindProgram k pair⟩⟩, by decide, rfl, by decide, rfl⟩
theorem witness_LegacyTableSeesTheRadioThroughGetters :
    ∀ g : Getter, getterAnswer g radioUsb = getterAnswer g { radioUsb with catTx := true, hidden := 5 } := by
  intro g; cases g <;> rfl
theorem witness_LegacyVfoEntryShowsTheActiveVfo : 1 ≤ 1 ∧ 1 ≤ 7 ∧ 7 ≤ 7 := by decide
theorem witness_DefaultRowsAcknowledgeOnly : isDefaultRow (.defaultOp 0 0 0 0 0x70) = true ∧
    isDefaultRow (.dcs 0 0 0 0) = true := by decide
theorem witness_CommandsLeaveTheFramerAlone : (∃ t, exec (.ptton 0 0 0 0) State.reset = .next t) ∧
    ∀ p1 p2 p3 p4, Instr.ptton 0 0 0 0 ≠ .rdlegacy p1 p2 p3 p4 := ⟨⟨_, rfl⟩, by simp⟩
theorem witness_ReadsChangeNoRadioState : keepsRadio (.rdlegacy 0 0x55 0 0) = true ∧
    ∃ t, exec (.rdlegacy 0 0x55 0 0) State.reset = .next t := ⟨rfl, _, rfl⟩
theorem witness_RadioChangesOnlyThroughCalls : ∃ t, stepsTo (oneMissing 0x81) t := ⟨_, rfl⟩
theorem witness_CatFlagIsMarkedAndClearedByPtt : (∃ t, exec (.ptton 0 0 0 0) State.reset = .next t) ∧
    (∃ t, exec (.pttoff 0 0 0 0) State.reset = .next t) ∧ (∃ t, exec (.rdrxs 0 0 0 0) State.reset = .next t) ∧
    refParams.react = referenceReact ∧ ∃ t, execWith refParams (.ptton 0 0 0 0) State.reset = .next t :=
  ⟨⟨_, rfl⟩, ⟨_, rfl⟩, ⟨_, rfl⟩, rfl, _, rfl⟩
theorem witness_LegacyReadIsIdempotent : ∃ t u, exec (.rdlegacy 0 0x55 0 0) State.reset = .next t ∧
    exec (.rdlegacy 0 0x55 0 0) t = .next u := ⟨_, _, rfl, rfl⟩
theorem witness_OldBufferBytesReachNoLaterCommand : fiveWaiting.fill = 0 ∧ NoReset fiveWaiting ∧
    ∃ t, Host.Core.run core 5 fiveWaiting = .next t :=
  ⟨rfl, by simp [NoReset, fiveWaiting, State.reset], _, rfl⟩

end Sys2Proof.Tests
end

/-! SUPPORT. What a command makes of the state, once and for every choice of the parameters (R91 to R104): the
trace grows by the command's row of R104, the radio is what the calls of that row make of it, `RDLEGACY` rewrites
two bytes of `buf`, and nothing else changes. -/

namespace Sys2Proof.Machine

/-- `buf` after a command: only the legacy handler writes it (R112). -/
def commandBuf (P : Params) (i : Instr) (s : State) : Frame :=
  match i with
  | .rdlegacy p1 p2 _ _ =>
    { s.buf with p1 := (legacyTable P.legacy p2 p1 s.radio).2.1, p2 := (legacyTable P.legacy p2 p1 s.radio).2.2 }
  | _ => s.buf

/-- The state after a command; `execWith_eq` ties it to the model. -/
def afterCommand (P : Params) (i : Instr) (s : State) : State :=
  { s with
    buf := commandBuf P i s
    radio := replayRadio P (summaryEvents P i s.radio) s.radio
    trace := s.trace ++ summaryEvents P i s.radio }

@[simp] theorem afterCommand_buf (P : Params) (i : Instr) (s : State) :
    (afterCommand P i s).buf = commandBuf P i s := rfl
@[simp] theorem afterCommand_fill (P : Params) (i : Instr) (s : State) : (afterCommand P i s).fill = s.fill := rfl
@[simp] theorem afterCommand_deadline (P : Params) (i : Instr) (s : State) :
    (afterCommand P i s).deadline = s.deadline := rfl
@[simp] theorem afterCommand_armed (P : Params) (i : Instr) (s : State) : (afterCommand P i s).armed = s.armed := rfl
@[simp] theorem afterCommand_rx (P : Params) (i : Instr) (s : State) : (afterCommand P i s).rx = s.rx := rfl
@[simp] theorem afterCommand_now (P : Params) (i : Instr) (s : State) : (afterCommand P i s).now = s.now := rfl
@[simp] theorem afterCommand_schedule (P : Params) (i : Instr) (s : State) :
    (afterCommand P i s).schedule = s.schedule := rfl
@[simp] theorem afterCommand_radio (P : Params) (i : Instr) (s : State) :
    (afterCommand P i s).radio = replayRadio P (summaryEvents P i s.radio) s.radio := rfl
@[simp] theorem afterCommand_trace (P : Params) (i : Instr) (s : State) :
    (afterCommand P i s).trace = s.trace ++ summaryEvents P i s.radio := rfl

theorem summaryEvents_rdlegacy (P : Params) (p1 p2 p3 p4 : Byte) (r : Radio) :
    summaryEvents P (.rdlegacy p1 p2 p3 p4) r =
      (legacyTable P.legacy p2 p1 r).1.map .get ++
        [.write [(legacyTable P.legacy p2 p1 r).2.1, (legacyTable P.legacy p2 p1 r).2.2]] := rfl

/-- Getter calls leave the radio as it is (R39). -/
theorem replayRadio_gets (P : Params) (gs : List Getter) (r : Radio) : replayRadio P (gs.map .get) r = r := by
  rw [replayRadio, filterMap_eventCall_gets]
  rfl

theorem pttOn_eq_afterCommand (P : Params) (p1 p2 p3 p4 : Byte) (s : State) :
    pttOn P s = afterCommand P (.ptton p1 p2 p3 p4) s := by
  cases h : s.radio.transmitting
  · simp only [pttOn_idle P s h, afterCommand, summaryEvents, h]
    rfl
  · simp only [pttOn_busy P s h, afterCommand, summaryEvents, h]
    rfl

theorem pttOff_eq_afterCommand (P : Params) (p1 p2 p3 p4 : Byte) (s : State) :
    pttOff P s = afterCommand P (.pttoff p1 p2 p3 p4) s := by
  cases h : s.radio.transmitting
  · simp only [pttOff_idle P s h, afterCommand, summaryEvents, h]
    rfl
  · simp only [pttOff_transmitting P s h, afterCommand, summaryEvents, h]
    rfl

theorem legacyRead_eq_afterCommand (P : Params) (p1 p2 p3 p4 : Byte) (s : State) :
    legacyRead P p1 p2 s = afterCommand P (.rdlegacy p1 p2 p3 p4) s := by
  rw [legacyRead_eq, afterCommand, summaryEvents_rdlegacy, replayRadio_append, replayRadio_gets]
  rfl

/-- Every command has a next state, and this is it. -/
theorem execWith_eq (P : Params) (i : Instr) (s : State) : execWith P i s = .next (afterCommand P i s) := by
  cases i
  case setfreq p1 p2 p3 p4 => exact congrArg _ (setFrequency_eq P p1 p2 p3 p4 s)
  case rdfreq => exact congrArg _ (readFreqAndMode_eq s)
  case mode p1 _ _ _ => exact congrArg _ (operatingMode_eq P p1 s)
  case ptton => exact congrArg _ (pttOn_eq_afterCommand P _ _ _ _ s)
  case pttoff => exact congrArg _ (pttOff_eq_afterCommand P _ _ _ _ s)
  case vfotog => exact congrArg _ (vfoToggle_eq P s)
  case rdlegacy => exact congrArg _ (legacyRead_eq_afterCommand P _ _ _ _ s)
  case rdtxs => exact congrArg _ (readTxStatus_eq P s)
  all_goals rfl

/-- The dispatcher of the host's interface is the parametrised one at this model's parameters (R30). -/
theorem exec_eq_execWith (i : Instr) (s : State) : exec i s = execWith params i s := by
  cases i <;> rfl

theorem exec_eq (i : Instr) (s : State) : exec i s = .next (afterCommand params i s) := by
  rw [exec_eq_execWith, execWith_eq]

theorem dispatch_eq_dispatchWith : dispatch = dispatchWith params := by
  funext f s
  exact exec_eq_execWith (decode f) s

theorem tick_eq_tickWith (s : State) : tick s = tickWith params s := by
  rw [tick, dispatch_eq_dispatchWith]; rfl

theorem step_eq_stepWith (s : State) : step s = stepWith params s := tick_eq_tickWith (deliver s)

/-! ### What the rows of R104 hold -/

theorem selectMode_ne_other (sel : ModeSelectors) (p1 : Byte) : selectMode sel p1 ≠ .other := by
  unfold selectMode
  split <;> decide

theorem encodeFrequencyBCD_length (f : Freq) : (encodeFrequencyBCD f).length = 4 := rfl

/-- The row of `MODE` through the operation that selects the mode. -/
theorem summaryEvents_mode (P : Params) (p1 p2 p3 p4 : Byte) (r : Radio) :
    summaryEvents P (.mode p1 p2 p3 p4) r =
      [.call (.setMode (selectMode P.selectors p1)), .write [0x00], .get .getFrequencyHz,
        .call (.setFrequencyHz (P.react (.setMode (selectMode P.selectors p1)) r).freqHz), .refresh] := rfl

theorem summaryEvents_allowed (P : Params) (i : Instr) (r : Radio) :
    ∀ e ∈ summaryEvents P i r, eventAllowed P e := by
  cases i
  case mode p1 _ _ _ => simp [summaryEvents_mode, eventAllowed, selectMode_ne_other]
  case rdfreq => simp [summaryEvents, eventAllowed, encodeFrequencyBCD_length]
  case rdlegacy =>
    intro e he
    rcases List.mem_append.1 he with hg | hw
    · obtain ⟨g, -, rfl⟩ := List.mem_map.1 hg
      trivial
    · obtain rfl := List.mem_singleton.1 hw
      exact .inr (.inl rfl)
  case ptton => cases h : r.transmitting <;> simp [summaryEvents, eventAllowed, h]
  case pttoff => cases h : r.transmitting <;> simp [summaryEvents, eventAllowed, h]
  all_goals simp [summaryEvents, eventAllowed]

/-- A command writes once, or not at all where it has no reply (R55, R33). -/
theorem countP_isWrite_summaryEvents (P : Params) (i : Instr) (r : Radio) :
    (summaryEvents P i r).countP isWrite = if replyLength i = 0 then 0 else 1 := by
  cases i
  case rdlegacy =>
    rw [summaryEvents_rdlegacy, List.countP_append, countP_isWrite_gets]
    rfl
  case ptton => cases h : r.transmitting <;> simp only [summaryEvents, h] <;> rfl
  case pttoff => cases h : r.transmitting <;> simp only [summaryEvents, h] <;> rfl
  all_goals rfl

theorem countP_isWrite_summaryEvents_le_one (P : Params) (i : Instr) (r : Radio) :
    (summaryEvents P i r).countP isWrite ≤ 1 := by
  rw [countP_isWrite_summaryEvents]
  split <;> decide

/-- No command dispatches. -/
theorem filterMap_eventFrame_summaryEvents (P : Params) (i : Instr) (r : Radio) :
    (summaryEvents P i r).filterMap eventFrame = [] := by
  cases i
  case rdlegacy =>
    rw [summaryEvents_rdlegacy, List.filterMap_append, filterMap_eventFrame_gets]
    rfl
  case ptton => cases h : r.transmitting <;> simp only [summaryEvents, h] <;> rfl
  case pttoff => cases h : r.transmitting <;> simp only [summaryEvents, h] <;> rfl
  all_goals rfl

/-! ### The CAT-initiated flag (R28) -/

/-- The arguments of the `setCatTx` calls a command makes on the radio `r` (R97, R98, D13). -/
def catTxCalls (i : Instr) (r : Radio) : List Bool :=
  match i with
  | .ptton _ _ _ _ => if r.transmitting then [] else [true]
  | .pttoff _ _ _ _ => [false]
  | _ => []

theorem filterMap_eventCatTx_summaryEvents (P : Params) (i : Instr) (r : Radio) :
    (summaryEvents P i r).filterMap eventCatTx = catTxCalls i r := by
  cases i
  case rdlegacy =>
    rw [summaryEvents_rdlegacy, List.filterMap_append, filterMap_eventCatTx_gets]
    rfl
  case ptton => cases h : r.transmitting <;> simp only [summaryEvents, catTxCalls, h] <;> rfl
  case pttoff => cases h : r.transmitting <;> simp only [summaryEvents, h] <;> rfl
  all_goals rfl

theorem referenceReact_catTx (c : RadioCall) (r : Radio) :
    (referenceReact c r).catTx = (eventCatTx (.call c)).getD r.catTx := by
  cases c <;> rfl

/-- In the reference radio (D18) the flag is what the last `setCatTx` call gave, if there was one. -/
theorem replayRadio_catTx (P : Params) (hP : P.react = referenceReact) (es : List Event) (r : Radio) :
    (replayRadio P es r).catTx = (es.filterMap eventCatTx).getLastD r.catTx := by
  induction es generalizing r with
  | nil => rfl
  | cons e es ih =>
    cases e with
    | call c =>
      have hcall : (radioAfter P c r).catTx = (eventCatTx (.call c)).getD r.catTx := by
        rw [radioAfter, hP, referenceReact_catTx]
      have hcons : replayRadio P (.call c :: es) r = replayRadio P es (radioAfter P c r) := rfl
      rw [hcons, ih, hcall, List.filterMap_cons]
      cases eventCatTx (.call c) with
      | none => rfl
      | some on => exact List.getLastD_cons.symm
    | get _ | refresh | write _ | dispatch _ => exact ih r

/-! ### The tick for every choice of the parameters (R30, R82) -/

/-- The state after the dispatch of the complete frame in `buf`, and the return to `Idle` (R81). -/
def afterFrame (P : Params) (s : State) : State :=
  toIdle (afterCommand P (decodeWith P.opcodes s.buf) (beginDispatch s))

theorem completeBy_dispatchWith (P : Params) (s : State) :
    completeBy (dispatchWith P) s = .next (afterFrame P s) :=
  completeBy_next _ _ _ (execWith_eq P _ _)

@[simp] theorem afterFrame_fill (P : Params) (s : State) : (afterFrame P s).fill = 0 := rfl

@[simp] theorem afterFrame_trace (P : Params) (s : State) :
    (afterFrame P s).trace =
      s.trace ++ .dispatch s.buf :: summaryEvents P (decodeWith P.opcodes s.buf) s.radio := by
  simp [afterFrame]

@[simp] theorem afterFrame_radio (P : Params) (s : State) :
    (afterFrame P s).radio =
      replayRadio P (.dispatch s.buf :: summaryEvents P (decodeWith P.opcodes s.buf) s.radio) s.radio := rfl

theorem tickWith_of_no_byte (P : Params) (s : State) (h : s.rx = []) : tickWith P s = .next (emptyTick s) := by
  simp [tickWith, tickBy, h]

theorem tickWith_of_byte (P : Params) (s : State) (b : Byte) (rest : List Byte) (h : s.rx = b :: rest)
    (h4 : s.fill ≠ 4) : tickWith P s = .next (advance (takeByte P.timeoutMs b rest s)) := by
  simp [tickWith, tickBy, h, h4]

theorem tickWith_of_fifth_byte (P : Params) (s : State) (b : Byte) (rest : List Byte) (h : s.rx = b :: rest)
    (h4 : s.fill = 4) : tickWith P s = .next (afterFrame P (takeByte P.timeoutMs b rest s)) := by
  simp [tickWith, tickBy, h, h4, completeBy_dispatchWith]

/-- All a tick can be, under any parameters: a timeout, nothing, a byte stored, or a frame completed and run. -/
theorem tickWith_cases (P : Params) (s t : State) (h : tickWith P s = .next t) :
    (s.rx = [] ∧ timedOut s = true ∧ t = toIdle s) ∨
    (s.rx = [] ∧ timedOut s = false ∧ t = s) ∨
    (∃ b rest, s.rx = b :: rest ∧ s.fill ≠ 4 ∧ t = advance (takeByte P.timeoutMs b rest s)) ∨
    ∃ b rest, s.rx = b :: rest ∧ s.fill = 4 ∧ t = afterFrame P (takeByte P.timeoutMs b rest s) := by
  rcases tickBy_cases P.timeoutMs (dispatchWith P) s with
    ⟨hrx, he⟩ | ⟨b, rest, hrx, h4, he⟩ | ⟨b, rest, hrx, h4, he⟩
  · obtain rfl := Host.Outcome.next.inj (h.symm.trans he)
    rcases emptyTick_cases s with ⟨hout, hs⟩ | ⟨hout, hs⟩
    · exact .inl ⟨hrx, hout, hs⟩
    · exact .inr (.inl ⟨hrx, hout, hs⟩)
  · exact .inr (.inr (.inl ⟨b, rest, hrx, h4, Host.Outcome.next.inj (h.symm.trans he)⟩))
  · rw [completeBy_dispatchWith] at he
    exact .inr (.inr (.inr ⟨b, rest, hrx, h4, Host.Outcome.next.inj (h.symm.trans he)⟩))

/-- Every tick has a next state (R113). -/
theorem tickWith_total (P : Params) (s : State) : ∃ t, tickWith P s = .next t := by
  rcases tickBy_cases P.timeoutMs (dispatchWith P) s with ⟨-, he⟩ | ⟨_, _, -, -, he⟩ | ⟨_, _, -, -, he⟩
  · exact ⟨_, he⟩
  · exact ⟨_, he⟩
  · exact ⟨_, he.trans (completeBy_dispatchWith P _)⟩

/-- The first byte of a frame is stored and arms the deadline (R79). -/
theorem takeByte_of_idle (n : Nat) (b : Byte) (rest : List Byte) (s : State) (h : s.fill = 0) :
    takeByte n b rest s =
      { s with rx := rest, buf := { s.buf with p1 := b }, deadline := s.now + n, armed := true } := by
  simp [takeByte, armFirst, storeByte, Frame.set, h]

/-- A later byte is stored and touches nothing else (R79, R80). -/
theorem takeByte_of_filling (n : Nat) (b : Byte) (rest : List Byte) (s : State) (h : s.fill ≠ 0) :
    takeByte n b rest s = { s with rx := rest, buf := s.buf.set s.fill b } := by
  simp [takeByte, armFirst, storeByte, h]

theorem frame_set_four (f : Frame) (b : Byte) : f.set 4 b = { f with cmd := b } := rfl

theorem advance_fill_ne_zero (s : State) (h : s.fill ≠ 4) : (advance s).fill ≠ 0 := by
  have hsucc : ∀ k : Fin 5, k ≠ 4 → k + 1 ≠ 0 := by decide
  exact hsucc s.fill h

/-- The environment makes no entry in the trace. -/
@[simp] theorem deliver_trace (s : State) : (deliver s).trace = s.trace := by
  rcases deliver_cases s with ⟨-, hd⟩ | ⟨x, rest, -, hd⟩ <;> rw [hd]
  rw [applyInput_trace]

/-! ### The framer's states (R19) -/

theorem phase_eq_idle (s : State) : s.phase = .idle ↔ s.fill = 0 := by
  simp [State.phase]

theorem phase_eq_filling (s : State) : s.phase = .filling ↔ s.fill ≠ 0 := by
  simp [State.phase]

theorem phase_idle_or_filling (s : State) : s.phase = .idle ∨ s.phase = .filling := by
  rw [phase_eq_idle, phase_eq_filling]
  exact em _

theorem tickPhase_of_no_byte (s : State) (h : s.rx = []) :
    tickPhase s = if timedOut s then .timedOut else s.phase := by
  simp [tickPhase, h]

theorem tickPhase_of_byte (s : State) (b : Byte) (rest : List Byte) (h : s.rx = b :: rest) :
    tickPhase s = if s.fill = 4 then .complete else .filling := by
  simp [tickPhase, h]

/-! ### The invariant: each part of a step keeps it -/

section
variable {P : Params} {s t : State}

/-- The invariant holds after reset. -/
theorem inv_reset : Inv P State.reset :=
  ⟨rfl, fun harmed => absurd harmed (by decide), by simp [State.reset], by decide⟩

/-- Where the trace stays as it was, only what the invariant says of the framer is left to show. -/
theorem inv_of_trace_eq (h : Inv P s) (htrace : t.trace = s.trace) (harmed : t.armed = decide (t.fill ≠ 0))
    (hdeadline : t.armed = true → t.deadline ≤ t.now + P.timeoutMs) : Inv P t where
  armed_iff_filling := harmed
  deadline_near := hdeadline
  events_allowed := htrace ▸ h.events_allowed
  one_write_a_dispatch := by simpa [State.dispatched, htrace] using h.one_write_a_dispatch

theorem inv_toIdle (h : Inv P s) : Inv P (toIdle s) := inv_of_trace_eq h rfl rfl (by simp)

/-- Time only brings a deadline nearer, and a framer that was reset has none armed. -/
theorem inv_applyInput (x : TickInput) (h : Inv P s) : Inv P (applyInput x s) := by
  refine inv_of_trace_eq h (applyInput_trace x s) ?_ fun harmed => ?_
  · rw [applyInput_armed, applyInput_fill]
    split
    · rfl
    · exact h.armed_iff_filling
  · rw [applyInput_armed] at harmed
    rw [applyInput_deadline, applyInput_now]
    split at harmed
    · exact absurd harmed (by decide)
    · have hnear := h.deadline_near harmed
      rw [if_neg ‹_›]
      omega

theorem inv_deliver (h : Inv P s) : Inv P (deliver s) := by
  rcases deliver_cases s with ⟨-, hd⟩ | ⟨x, rest, -, hd⟩ <;> rw [hd]
  · exact h
  · exact inv_applyInput x (inv_of_trace_eq h rfl h.armed_iff_filling h.deadline_near)

theorem inv_takeByte_of_filling (n : Nat) (b : Byte) (rest : List Byte) (h : Inv P s) (h0 : s.fill ≠ 0) :
    Inv P (takeByte n b rest s) := by
  rw [takeByte_of_filling n b rest s h0]
  exact inv_of_trace_eq h rfl h.armed_iff_filling h.deadline_near

/-- A stored byte leaves the framer filling and armed; the first one sets the deadline just the timeout away. -/
theorem inv_advance_takeByte (b : Byte) (rest : List Byte) (h : Inv P s) (h4 : s.fill ≠ 4) :
    Inv P (advance (takeByte P.timeoutMs b rest s)) := by
  have hfill : (advance (takeByte P.timeoutMs b rest s)).fill ≠ 0 := advance_fill_ne_zero _ (by simpa using h4)
  refine inv_of_trace_eq h (takeByte_trace _ b rest s) ?_ fun _ => ?_
  · rw [decide_eq_true hfill, advance_armed, takeByte_armed, h.armed_iff_filling]
    split
    · rfl
    · exact decide_eq_true ‹_›
  · by_cases h0 : s.fill = 0
    · simp [takeByte_deadline, h0]
    · exact (inv_takeByte_of_filling _ b rest h h0).deadline_near ‹_›

/-- A dispatch adds one mark, the allowed events of one command, and at most one write (R33). -/
theorem inv_afterFrame (h : Inv P s) : Inv P (afterFrame P s) where
  armed_iff_filling := rfl
  deadline_near harmed := absurd harmed (by simp [afterFrame])
  events_allowed e he := by
    rw [afterFrame_trace, List.mem_append, List.mem_cons] at he
    rcases he with he | rfl | he
    · exact h.events_allowed e he
    · trivial
    · exact summaryEvents_allowed P _ _ e he
  one_write_a_dispatch := by
    have hold := h.one_write_a_dispatch
    have hone := countP_isWrite_summaryEvents_le_one P (decodeWith P.opcodes s.buf) s.radio
    have hmark : (afterFrame P s).dispatched = s.dispatched ++ [s.buf] := by
      rw [dispatched_append s _ _ (afterFrame_trace P s), List.filterMap_cons,
        filterMap_eventFrame_summaryEvents]
      rfl
    have hwrites : (afterFrame P s).trace.countP isWrite =
        s.trace.countP isWrite + (summaryEvents P (decodeWith P.opcodes s.buf) s.radio).countP isWrite := by
      rw [afterFrame_trace, List.countP_append]
      rfl
    rw [hwrites, hmark, List.length_append, List.length_singleton]
    omega

theorem inv_tickWith (h : Inv P s) (ht : tickWith P s = .next t) : Inv P t := by
  rcases tickWith_cases P s t ht with ⟨-, -, rfl⟩ | ⟨-, -, rfl⟩ | ⟨b, rest, -, h4, rfl⟩ | ⟨b, rest, -, h4, rfl⟩
  · exact inv_toIdle h
  · exact h
  · exact inv_advance_takeByte b rest h h4
  · exact inv_afterFrame (inv_takeByte_of_filling _ b rest h (by simp [h4]))

theorem inv_stepWith (h : Inv P s) (ht : stepWith P s = .next t) : Inv P t :=
  inv_tickWith (inv_deliver h) ht

end

/-! ### The statements of 10_state.md -/

/-- Settles O33: the environment's move and each kind of tick keep the invariant. -/
theorem everyStepKeepsTheInvariant : Obligations.EveryStepKeepsTheInvariant :=
  ⟨fun s _ h ht => inv_stepWith h (step_eq_stepWith s ▸ ht), fun _ _ _ h ht => inv_stepWith h ht⟩

/-- Settles O36: `deliver s` ticks as one of the three equations of `tickWith` says. -/
theorem stepForEveryParameterChoice : Obligations.StepForEveryParameterChoice := by
  intro P s
  refine ⟨tickWith_total P (deliver s), fun hrx => ?_, fun b rest hrx => ⟨fun h0 => ?_, fun h0 h4 => ?_, ?_⟩⟩
  · rw [stepWith, tickWith_of_no_byte P _ hrx]
    simp [emptyTick, timedOut, toIdle]
  · rw [stepWith, tickWith_of_byte P _ b rest hrx (by simp [h0]), takeByte_of_idle _ _ _ _ h0]
    simp [advance, h0]
  · rw [stepWith, tickWith_of_byte P _ b rest hrx h4, takeByte_of_filling _ _ _ _ h0]
    rfl
  · rintro h4 f rfl
    refine ⟨_, execWith_eq P _ _, ?_⟩
    have h0 : (deliver s).fill ≠ 0 := by simp [h4]
    rw [stepWith, tickWith_of_fifth_byte P _ b rest hrx h4, takeByte_of_filling _ _ _ _ h0, h4, frame_set_four]
    rfl

/-- Settles O38, by the kinds of tick. -/
theorem transientStatesEndInIdle : Obligations.TransientStatesEndInIdle := by
  intro s t ht
  refine ⟨phase_idle_or_filling t, ?_⟩
  rw [step_eq_stepWith] at ht
  rcases tickWith_cases params (deliver s) t ht with
    ⟨hrx, hout, rfl⟩ | ⟨hrx, hout, rfl⟩ | ⟨b, rest, hrx, h4, rfl⟩ | ⟨b, rest, hrx, h4, rfl⟩
  · have hphase : (toIdle (deliver s)).phase = .idle := (phase_eq_idle _).2 rfl
    simp [tickPhase_of_no_byte _ hrx, hout, hphase]
  · rcases phase_idle_or_filling (deliver s) with hphase | hphase <;>
      simp [tickPhase_of_no_byte _ hrx, hout, hphase]
  · have hphase : (advance (takeByte params.timeoutMs b rest (deliver s))).phase = .filling :=
      (phase_eq_filling _).2 (advance_fill_ne_zero _ (by simpa using h4))
    simp [tickPhase_of_byte _ b rest hrx, h4, hphase]
  · have hphase : (afterFrame params (takeByte params.timeoutMs b rest (deliver s))).phase = .idle :=
      (phase_eq_idle _).2 rfl
    simp [tickPhase_of_byte _ b rest hrx, h4, hphase]

/-- Settles O57: only the fifth byte adds events, and the radio is then their replay. -/
theorem radioChangesOnlyThroughCalls : Obligations.RadioChangesOnlyThroughCalls := by
  intro s t ht
  rw [step_eq_stepWith] at ht
  rcases tickWith_cases params (deliver s) t ht with
    ⟨-, -, rfl⟩ | ⟨-, -, rfl⟩ | ⟨b, rest, -, -, rfl⟩ | ⟨b, rest, -, -, rfl⟩
  · exact ⟨[], by simp, rfl⟩
  · exact ⟨[], by simp, rfl⟩
  · exact ⟨[], by simp, by simp [replayRadio]⟩
  · rw [afterFrame_trace, afterFrame_radio, takeByte_trace, takeByte_radio, deliver_trace]
    exact ⟨_, rfl, rfl⟩

/-- Settles O58: the row of R104 holds just the calls of `catTxCalls`, and the reference radio keeps the last. -/
theorem catFlagIsMarkedAndClearedByPtt : Obligations.CatFlagIsMarkedAndClearedByPtt := by
  refine ⟨fun i s t ht => ?_, fun P i s t hP ht => ?_⟩
  · obtain rfl := Host.Outcome.next.inj (exec_eq i s ▸ ht)
    rw [afterCommand_trace, List.filterMap_append, filterMap_eventCatTx_summaryEvents]
    rfl
  · obtain rfl := Host.Outcome.next.inj (execWith_eq P i s ▸ ht)
    rw [afterCommand_radio, replayRadio_catTx P hP, filterMap_eventCatTx_summaryEvents]
    cases i
    case ptton => cases h : s.radio.transmitting <;> simp [catTxCalls, h]
    all_goals rfl

/-- Settles O16: both states have `fill` 0, and a reset is a record update of the framer's fields. -/
theorem resetPutsTheFramerInIdle : Obligations.ResetPutsTheFramerInIdle :=
  ⟨(phase_eq_idle _).2 rfl, rfl, rfl, fun s =>
    ⟨(phase_eq_idle _).2 (resetFramer_fill s), resetFramer_fill s, resetFramer_armed s, resetFramer_trace s,
      resetFramer_rx s, resetFramer_radio s, resetFramer_now s, resetFramer_schedule s⟩⟩

/-- Settles O34: the trace is empty and the framer idle. -/
theorem resetMeetsTheInvariant : Obligations.ResetMeetsTheInvariant := fun _ => inv_reset

/-- Settles O35: `exec` and `execWith params` agree arm by arm, and the rest is built over them. -/
theorem stepIsTheStepAtTheseParameters : Obligations.StepIsTheStepAtTheseParameters :=
  ⟨exec_eq_execWith, fun _ => rfl, tick_eq_tickWith, step_eq_stepWith⟩

end Sys2Proof.Machine

/-! SUPPORT. What a step keeps (R42, R126), and framing by counting alone (R38): the bytes of the unfinished frame, what
one byte tick makes of them, and a run of byte ticks. -/

namespace Sys2Proof.Machine

/-! ### The environment's move, the tick and the step, in the fields they keep -/

@[simp] theorem deliver_schedule (s : State) : (deliver s).schedule = s.schedule.tail := by
  rcases deliver_cases s with ⟨hsched, hd⟩ | ⟨x, rest, hsched, hd⟩ <;> rw [hd]
  · rw [hsched, List.tail_nil]
  · rw [applyInput_schedule, hsched, List.tail_cons]

/-- New bytes arrive behind those that wait (R121 (c)). -/
theorem deliver_rx_append (s : State) : ∃ arrived, (deliver s).rx = s.rx ++ arrived := by
  rcases deliver_cases s with ⟨-, hd⟩ | ⟨x, rest, -, hd⟩ <;> rw [hd]
  · exact ⟨[], (List.append_nil _).symm⟩
  · exact ⟨x.arrivals, applyInput_rx x _⟩

theorem deliver_rx_cons (s : State) (b : Byte) (rest : List Byte) (h : s.rx = b :: rest) :
    ∃ arrived, (deliver s).rx = b :: (rest ++ arrived) := by
  obtain ⟨arrived, hd⟩ := deliver_rx_append s
  exact ⟨arrived, by rw [hd, h, List.cons_append]⟩

/-- Without a reset the environment moves the same way whatever stands in `buf`, and leaves it there. -/
theorem deliver_with_buf (s : State) (f : Frame) (h : NoReset s) :
    deliver { s with buf := f } = { deliver s with buf := f } := by
  cases hsched : s.schedule with
  | nil => simp [deliver, hsched]
  | cons x rest => simp [deliver, hsched, applyInput, h x (by simp [hsched])]

theorem deliver_buf_of_noReset (s : State) (h : NoReset s) : (deliver s).buf = s.buf := by
  rcases deliver_cases s with ⟨-, hd⟩ | ⟨x, rest, hsched, hd⟩ <;> rw [hd]
  simp [applyInput_buf, h x (by simp [hsched])]

theorem deliver_fill_of_noReset (s : State) (h : NoReset s) : (deliver s).fill = s.fill := by
  rcases deliver_cases s with ⟨-, hd⟩ | ⟨x, rest, hsched, hd⟩ <;> rw [hd]
  simp [applyInput_fill, h x (by simp [hsched])]

theorem dispatched_of_trace_eq (s t : State) (h : t.trace = s.trace) : t.dispatched = s.dispatched :=
  congrArg (List.filterMap eventFrame) h

@[simp] theorem afterFrame_rx (P : Params) (s : State) : (afterFrame P s).rx = s.rx := rfl
@[simp] theorem afterFrame_now (P : Params) (s : State) : (afterFrame P s).now = s.now := rfl
@[simp] theorem afterFrame_schedule (P : Params) (s : State) : (afterFrame P s).schedule = s.schedule := rfl

/-- A dispatch is marked with the frame in `buf`, and the command it runs dispatches nothing. -/
@[simp] theorem afterFrame_dispatched (P : Params) (s : State) :
    (afterFrame P s).dispatched = s.dispatched ++ [s.buf] := by
  rw [dispatched_append s _ _ (afterFrame_trace P s), List.filterMap_cons, filterMap_eventFrame_summaryEvents]
  rfl

/-- The tick itself takes no time and uses nothing of the schedule (R126). -/
theorem tickWith_keeps_now_and_schedule (P : Params) (s t : State) (h : tickWith P s = .next t) :
    t.now = s.now ∧ t.schedule = s.schedule := by
  rcases tickWith_cases P s t h with ⟨-, -, rfl⟩ | ⟨-, -, rfl⟩ | ⟨b, rest, -, -, rfl⟩ | ⟨b, rest, -, -, rfl⟩ <;>
    simp

theorem step_keeps_now_and_pops_schedule (s t : State) (h : step s = .next t) :
    t.now = (deliver s).now ∧ t.schedule = s.schedule.tail := by
  rw [step_eq_stepWith] at h
  obtain ⟨hnow, hsched⟩ := tickWith_keeps_now_and_schedule params (deliver s) t h
  exact ⟨hnow, hsched.trans (deliver_schedule s)⟩

theorem noReset_of_step (s t : State) (hs : NoReset s) (h : step s = .next t) : NoReset t := by
  obtain ⟨-, hsched⟩ := step_keeps_now_and_pops_schedule s t h
  intro x hx
  rw [hsched] at hx
  exact hs x (List.mem_of_mem_tail hx)

/-- Settles O37: a step adds events behind the trace, and the reply stream is read off the trace. -/
theorem traceOnlyGrows : Obligations.TraceOnlyGrows := by
  intro s t ht
  obtain ⟨es, htrace, -⟩ := radioChangesOnlyThroughCalls s t ht
  obtain ⟨hnow, hsched⟩ := step_keeps_now_and_pops_schedule s t ht
  exact ⟨⟨es, htrace⟩, ⟨_, replyStream_append s t es htrace⟩, hsched, hnow⟩

/-! ### The legacy read twice (R34) -/

/-- A legacy read calls getters and writes, so the radio stays as it was (R106). -/
theorem replayRadio_summaryEvents_rdlegacy (P : Params) (p1 p2 p3 p4 : Byte) (r : Radio) :
    replayRadio P (summaryEvents P (.rdlegacy p1 p2 p3 p4) r) r = r := by
  rw [summaryEvents_rdlegacy, replayRadio_append, replayRadio_gets]
  rfl

/-- `buf` after a legacy read depends on the radio and on the bytes that the read does not write. -/
theorem commandBuf_rdlegacy (P : Params) (p1 p2 p3 p4 : Byte) (s : State) :
    commandBuf P (.rdlegacy p1 p2 p3 p4) s =
      { s.buf with
        p1 := (legacyTable P.legacy p2 p1 s.radio).2.1, p2 := (legacyTable P.legacy p2 p1 s.radio).2.2 } := rfl

/-- Settles O59: the second read finds the radio of the first, so it has the same row of events and the same pair. -/
theorem legacyReadIsIdempotent : Obligations.LegacyReadIsIdempotent := by
  intro p1 p2 p3 p4 s t u ht hu
  obtain rfl := Host.Outcome.next.inj (exec_eq _ s ▸ ht)
  obtain rfl := Host.Outcome.next.inj (exec_eq _ _ ▸ hu)
  have hradio : (afterCommand params (.rdlegacy p1 p2 p3 p4) s).radio = s.radio :=
    replayRadio_summaryEvents_rdlegacy params p1 p2 p3 p4 s.radio
  refine ⟨?_, replayRadio_summaryEvents_rdlegacy params p1 p2 p3 p4 _, _, afterCommand_trace params _ s, ?_⟩
  · simp only [afterCommand_buf, commandBuf_rdlegacy, hradio]
  · rw [afterCommand_trace, hradio]

/-! ### The bytes of the unfinished frame -/

/-- The bytes of the frame that is being filled: those of `buf` below the fill index (R15). -/
def State.pendingBytes (s : State) : List Byte := s.buf.bytes.take s.fill.val

theorem pendingBytes_of_idle (s : State) (h : s.fill = 0) : s.pendingBytes = [] := by
  simp [State.pendingBytes, h]

theorem pendingBytes_length_lt_five (s : State) : s.pendingBytes.length < 5 :=
  (List.length_take_le _ _).trans_lt s.fill.isLt

/-- A byte stored at index `k` stands right behind the bytes below `k`. -/
theorem take_bytes_set (f : Frame) (k : Fin 5) (b : Byte) :
    (f.set k b).bytes.take (k.val + 1) = f.bytes.take k.val ++ [b] := by
  fin_cases k <;> rfl

/-- The last byte stored, the bytes before it are the whole frame. -/
theorem bytes_set_four (f : Frame) (b : Byte) : (f.set 4 b).bytes = f.bytes.take 4 ++ [b] := rfl

theorem bytes_injective (f g : Frame) (h : f.bytes = g.bytes) : f = g := by
  cases f
  cases g
  simpa [Frame.bytes] using h

theorem fill_succ_val (k : Fin 5) (h : k ≠ 4) : (k + 1).val = k.val + 1 := by
  revert k
  decide

theorem framesOf_bytes_append (f : Frame) (bs : List Byte) : framesOf (f.bytes ++ bs) = f :: framesOf bs := rfl

theorem framesOf_of_length_lt_five : ∀ bs : List Byte, bs.length < 5 → framesOf bs = []
  | [], _ | [_], _ | [_, _], _ | [_, _, _], _ | [_, _, _, _], _ => rfl
  | _ :: _ :: _ :: _ :: _ :: _, h => absurd h (by simp)

/-! ### One byte tick, no reset to come -/

section
variable {s : State} {b : Byte} {rest : List Byte}

/-- A byte below the fifth is joined to the unfinished frame (R80). -/
theorem step_of_byte (hs : NoReset s) (hrx : s.rx = b :: rest) (h4 : s.fill ≠ 4) :
    ∃ t arrived, step s = .next t ∧ t.rx = rest ++ arrived ∧ t.fill = s.fill + 1 ∧
      t.pendingBytes = s.pendingBytes ++ [b] ∧ t.dispatched = s.dispatched := by
  obtain ⟨arrived, hd⟩ := deliver_rx_cons s b rest hrx
  have hbuf := deliver_buf_of_noReset s hs
  have hfill := deliver_fill_of_noReset s hs
  refine ⟨_, arrived, (step_eq_stepWith s).trans (tickWith_of_byte params _ b _ hd (hfill ▸ h4)), by simp,
    by simp [hfill], ?_, ?_⟩
  · simp [State.pendingBytes, hbuf, hfill, fill_succ_val s.fill h4, take_bytes_set]
  · exact dispatched_of_trace_eq s _ (by simp)

/-- The fifth byte completes the unfinished frame, which is dispatched (R81). -/
theorem step_of_fifth_byte (hs : NoReset s) (hrx : s.rx = b :: rest) (h4 : s.fill = 4) :
    ∃ t arrived f, step s = .next t ∧ t.rx = rest ++ arrived ∧ t.fill = 0 ∧
      f.bytes = s.pendingBytes ++ [b] ∧ t.dispatched = s.dispatched ++ [f] := by
  obtain ⟨arrived, hd⟩ := deliver_rx_cons s b rest hrx
  have hbuf := deliver_buf_of_noReset s hs
  have hfill := deliver_fill_of_noReset s hs
  refine ⟨_, arrived, s.buf.set 4 b,
    (step_eq_stepWith s).trans (tickWith_of_fifth_byte params _ b _ hd (hfill.trans h4)), by simp, by simp, ?_, ?_⟩
  · simp [State.pendingBytes, h4, bytes_set_four]
  · rw [afterFrame_dispatched, takeByte_buf, hbuf, hfill, h4]
    exact congrArg (· ++ _) (dispatched_of_trace_eq s _ (by simp))

/-- One byte tick moves its byte from the queue into the count: the frames dispatched, followed by those that counting
still finds in the unfinished frame and any bytes after it, are the same before and after. -/
theorem step_keeps_counted_frames (hs : NoReset s) (hrx : s.rx = b :: rest) :
    ∃ t arrived, step s = .next t ∧ t.rx = rest ++ arrived ∧ t.fill.val = (s.fill.val + 1) % 5 ∧
      ∀ bs, t.dispatched ++ framesOf (t.pendingBytes ++ bs) =
        s.dispatched ++ framesOf (s.pendingBytes ++ b :: bs) := by
  by_cases h4 : s.fill = 4
  · obtain ⟨t, arrived, f, hstep, htrx, hfill, hbytes, hdisp⟩ := step_of_fifth_byte hs hrx h4
    refine ⟨t, arrived, hstep, htrx, by simp [hfill, h4], fun bs => ?_⟩
    have hall : s.pendingBytes ++ b :: bs = f.bytes ++ bs := by simp [hbytes]
    rw [hall, framesOf_bytes_append, hdisp, pendingBytes_of_idle t hfill, List.append_assoc]
    rfl
  · obtain ⟨t, arrived, hstep, htrx, hfill, hpending, hdisp⟩ := step_of_byte hs hrx h4
    refine ⟨t, arrived, hstep, htrx, by rw [hfill]; rfl, fun bs => ?_⟩
    rw [hdisp, hpending, List.append_assoc]
    rfl

end

/-! ### A run of byte ticks -/

theorem run_succ (n : Nat) (s t : State) (h : step s = .next t) :
    Host.Core.run core (n + 1) s = Host.Core.run core n t := by
  have hcore : core.step s = .next t := h
  simp only [Host.Core.run, hcore]

/-- One tick for each of the bytes `bs` that wait, from any fill index: the frames are those that counting finds in the
unfinished frame and `bs`. -/
theorem run_dispatches_counted_frames (bs : List Byte) (s : State) (later : List Byte) (hs : NoReset s)
    (hrx : s.rx = bs ++ later) :
    ∃ t, Host.Core.run core bs.length s = .next t ∧
      t.dispatched = s.dispatched ++ framesOf (s.pendingBytes ++ bs) ∧
      t.fill.val = (s.fill.val + bs.length) % 5 := by
  induction bs generalizing s later with
  | nil =>
    refine ⟨s, rfl, ?_, (Nat.mod_eq_of_lt s.fill.isLt).symm⟩
    rw [List.append_nil, framesOf_of_length_lt_five _ (pendingBytes_length_lt_five s), List.append_nil]
  | cons b bs ih =>
    obtain ⟨u, arrived, hstep, hurx, hufill, hcount⟩ := step_keeps_counted_frames hs hrx
    obtain ⟨t, hrun, hdisp, htfill⟩ :=
      ih u (later ++ arrived) (noReset_of_step s u hs hstep) (hurx.trans (List.append_assoc _ _ _))
    refine ⟨t, (run_succ _ s u hstep).trans hrun, hdisp.trans (hcount bs), ?_⟩
    rw [htfill, hufill, List.length_cons]
    omega

/-- Settles O29: in `Idle` the unfinished frame is empty, and all the waiting bytes are counted. -/
theorem framesAreFoundByCounting : Obligations.FramesAreFoundByCounting := by
  intro s hidle hs
  simpa [pendingBytes_of_idle s hidle, hidle] using
    run_dispatches_counted_frames s.rx s [] hs (List.append_nil _).symm

/-! ### Old bytes in `buf` (R45, R112) -/

/-- A byte tick stores its byte in whatever stands in `buf`, and reads nothing of it. -/
theorem takeByte_with_buf (n : Nat) (b : Byte) (rest : List Byte) (s : State) (f : Frame) :
    takeByte n b rest { s with buf := f } = { takeByte n b rest s with buf := f.set s.fill b } := by
  unfold takeByte armFirst
  split <;> rfl

section
variable {s : State} {b : Byte} {rest : List Byte}

/-- A byte below the fifth leaves two states that differ in `buf` only different there only. -/
theorem step_with_buf_of_byte (f : Frame) (t : State) (hs : NoReset s) (hrx : s.rx = b :: rest) (h4 : s.fill ≠ 4)
    (ht : step s = .next t) : step { s with buf := f } = .next { t with buf := f.set s.fill b } := by
  obtain ⟨arrived, hd⟩ := deliver_rx_cons s b rest hrx
  have hfill := deliver_fill_of_noReset s hs
  have hd4 : (deliver s).fill ≠ 4 := hfill ▸ h4
  rw [step_eq_stepWith, stepWith, tickWith_of_byte params _ b _ hd hd4] at ht
  obtain rfl := Host.Outcome.next.inj ht
  rw [step_eq_stepWith, stepWith, deliver_with_buf s f hs,
    tickWith_of_byte params { deliver s with buf := f } b _ hd hd4, takeByte_with_buf, hfill]
  rfl

/-- At the fifth byte two states that differ in `buf` only, but agree on the four bytes before it, step to one state. -/
theorem step_with_buf_of_fifth_byte (f : Frame) (hs : NoReset s) (hrx : s.rx = b :: rest) (h4 : s.fill = 4)
    (hf : f.bytes.take s.fill.val = s.pendingBytes) : step { s with buf := f } = step s := by
  obtain ⟨arrived, hd⟩ := deliver_rx_cons s b rest hrx
  have hd4 : (deliver s).fill = 4 := (deliver_fill_of_noReset s hs).trans h4
  have hset : f.set 4 b = s.buf.set 4 b := by
    apply bytes_injective
    rw [State.pendingBytes, h4] at hf
    rw [bytes_set_four, bytes_set_four]
    exact congrArg (· ++ [b]) hf
  have htake : takeByte params.timeoutMs b (rest ++ arrived) { deliver s with buf := f } =
      takeByte params.timeoutMs b (rest ++ arrived) (deliver s) := by
    rw [takeByte_with_buf, hd4, hset, ← deliver_buf_of_noReset s hs, ← hd4, ← takeByte_buf]
  rw [step_eq_stepWith, step_eq_stepWith, stepWith, stepWith, deliver_with_buf s f hs,
    tickWith_of_fifth_byte params { deliver s with buf := f } b _ hd hd4, htake,
    tickWith_of_fifth_byte params _ b _ hd hd4]

end

/-- Over the bytes that complete a frame, what stands in `buf` from the fill index on plays no part. -/
theorem run_with_buf (n : Nat) (s : State) (f : Frame) (hs : NoReset s) (hfill : s.fill.val + n = 4)
    (hlen : n < s.rx.length) (hf : f.bytes.take s.fill.val = s.pendingBytes) :
    Host.Core.run core (n + 1) { s with buf := f } = Host.Core.run core (n + 1) s := by
  induction n generalizing s f with
  | zero =>
    obtain ⟨b, rest, hrx⟩ := List.exists_cons_of_length_pos hlen
    have hstep := step_with_buf_of_fifth_byte f hs hrx (Fin.ext hfill) hf
    obtain ⟨t, _, _, ht, -⟩ := step_of_fifth_byte hs hrx (Fin.ext hfill)
    rw [run_succ 0 _ t (hstep.trans ht), run_succ 0 s t ht]
  | succ n ih =>
    obtain ⟨b, rest, hrx⟩ := List.exists_cons_of_length_pos (Nat.zero_lt_of_lt hlen)
    have h4 : s.fill ≠ 4 := fun h => by simp [h] at hfill
    obtain ⟨t, arrived, ht, htrx, htfill, htpending, -⟩ := step_of_byte hs hrx h4
    have htval : t.fill.val = s.fill.val + 1 := htfill ▸ fill_succ_val s.fill h4
    have htlen : n < t.rx.length := by
      rw [hrx, List.length_cons] at hlen
      rw [htrx, List.length_append]
      omega
    rw [run_succ _ _ _ (step_with_buf_of_byte f t hs hrx h4 ht), run_succ _ s t ht]
    refine ih t _ (noReset_of_step s t hs ht) (by omega) htlen ?_
    rw [htval, take_bytes_set, hf, htpending]

/-- Settles O60: in `Idle` every byte of `buf` is an old one, and five bytes complete a frame. -/
theorem oldBufferBytesReachNoLaterCommand : Obligations.OldBufferBytesReachNoLaterCommand := by
  intro s t f b0 b1 b2 b3 b4 rest hidle hs hrx ht
  rw [← ht]
  exact run_with_buf 4 s f hs (by simp [hidle]) (by simp [hrx]) (by simp [State.pendingBytes, hidle])

end Sys2Proof.Machine

/-! SUPPORT. Decoding and encoding through the rows of the opcode table (R47 to R53): every instruction is of a handled
row, of one of the thirteen rows under `DEFAULT`, or the catch-all, and so is what every frame decodes to. -/

namespace Sys2Proof

/-! ### The instructions, row by row -/

/-- An instruction is a handled command, one of the thirteen rows under `DEFAULT`, or `DEFAULT` itself. -/
theorem instr_row_cases (m : OpcodeMap) (i : Instr) :
    (∃ row ∈ handledRows m, ∃ p1 p2 p3 p4, i = row.2 p1 p2 p3 p4) ∨
    (∃ row ∈ instanceRows, ∃ p1 p2 p3 p4, i = row.2 p1 p2 p3 p4) ∨
    ∃ p1 p2 p3 p4 cmd, i = .defaultOp p1 p2 p3 p4 cmd := by
  cases i
  case defaultOp => exact .inr (.inr ⟨_, _, _, _, _, rfl⟩)
  all_goals
    simp only [handledRows, instanceRows, List.exists_mem_cons_iff, List.not_mem_nil, reduceCtorEq, exists_false,
      false_and, false_or, or_false]
    exact ⟨_, _, _, _, rfl⟩

/-- A handled command is well formed whatever the opcode map. -/
theorem wellFormedFor_handledRow (m : OpcodeMap) (row : OpcodeRow) (hr : row ∈ handledRows m) (p1 p2 p3 p4 : Byte) :
    (row.2 p1 p2 p3 p4).wellFormedFor m = true := by
  simp only [handledRows, List.mem_cons, List.not_mem_nil, or_false] at hr
  rcases hr with rfl | rfl | rfl | rfl | rfl | rfl | rfl | rfl | rfl | rfl | rfl <;> rfl

/-- One of the thirteen rows under `DEFAULT` is well formed when its opcode is no handled value (R53). -/
theorem wellFormedFor_instanceRow (m : OpcodeMap) (row : OpcodeRow) (hr : row ∈ instanceRows) (p1 p2 p3 p4 : Byte) :
    (row.2 p1 p2 p3 p4).wellFormedFor m = true ↔ row.1 ∉ m.handled := by
  have hcheck : (row.2 p1 p2 p3 p4).wellFormedFor m = !m.handled.contains row.1 := by
    simp only [instanceRows, List.mem_cons, List.not_mem_nil, or_false] at hr
    rcases hr with rfl | rfl | rfl | rfl | rfl | rfl | rfl | rfl | rfl | rfl | rfl | rfl | rfl <;> rfl
  simp [hcheck]

/-- `DEFAULT` is well formed when its opcode has no other row (R52, R103). -/
theorem wellFormedFor_defaultOp (m : OpcodeMap) (p1 p2 p3 p4 cmd : Byte) :
    (Instr.defaultOp p1 p2 p3 p4 cmd).wellFormedFor m = true ↔ cmd ∉ m.handled ∧ cmd ∉ defaultInstances := by
  simp [Instr.wellFormedFor]

/-! ### What a frame decodes to -/

/-- Under a legal map the opcode byte of a handled command selects it (R48, R51). -/
theorem decodeWith_handledRow (m : OpcodeMap) (hm : m.Valid) (row : OpcodeRow) (hr : row ∈ handledRows m)
    (p1 p2 p3 p4 : Byte) : decodeWith m ⟨p1, p2, p3, p4, row.1⟩ = row.2 p1 p2 p3 p4 :=
  decodeWith_of_lookup m _ _ (lookupRow_of_mem (handledRows m) hm.1 row hr p1 p2 p3 p4)

/-- The opcode byte of one of the thirteen rows under `DEFAULT` selects it where no command has that byte (R53). -/
theorem decodeWith_instanceRow (m : OpcodeMap) (row : OpcodeRow) (hr : row ∈ instanceRows) (h : row.1 ∉ m.handled)
    (p1 p2 p3 p4 : Byte) : decodeWith m ⟨p1, p2, p3, p4, row.1⟩ = row.2 p1 p2 p3 p4 := by
  rw [decodeWith_of_not_handled m _ h, decodeDefaultRow, lookupRow_of_mem _ instanceRows_nodup row hr]
  rfl

/-- Every frame is read as the row of its opcode byte, or as `DEFAULT` where there is none (R52). -/
theorem decodeWith_cases (m : OpcodeMap) (f : Frame) :
    (∃ row ∈ handledRows m, f.cmd = row.1 ∧ decodeWith m f = row.2 f.p1 f.p2 f.p3 f.p4) ∨
    (∃ row ∈ instanceRows, f.cmd = row.1 ∧ f.cmd ∉ m.handled ∧ decodeWith m f = row.2 f.p1 f.p2 f.p3 f.p4) ∨
    (f.cmd ∉ m.handled ∧ f.cmd ∉ defaultInstances ∧ decodeWith m f = .defaultOp f.p1 f.p2 f.p3 f.p4 f.cmd) := by
  cases hh : lookupRow (handledRows m) f with
  | some i =>
    obtain ⟨row, hr, hcmd, rfl⟩ := lookupRow_some _ f i hh
    exact .inl ⟨row, hr, hcmd, decodeWith_of_lookup m f _ hh⟩
  | none =>
    have hnot : f.cmd ∉ m.handled := (lookupRow_none _ f).1 hh
    have hdec := decodeWith_of_not_handled m f hnot
    cases hi : lookupRow instanceRows f with
    | some i =>
      obtain ⟨row, hr, hcmd, rfl⟩ := lookupRow_some _ f i hi
      exact .inr (.inl ⟨row, hr, hcmd, hnot, by rw [hdec, decodeDefaultRow, hi]; rfl⟩)
    | none =>
      have hno : f.cmd ∉ defaultInstances := (lookupRow_none _ f).1 hi
      exact .inr (.inr ⟨hnot, hno, hdec.trans (decodeDefaultRow_of_no_instance f hno)⟩)

end Sys2Proof

namespace Sys2Proof.Machine

/-! ### What the rows of the default rule do, and which operands a command uses -/

/-- The default rule in its fourteen rows (R103). -/
theorem exec_of_isDefaultRow (i : Instr) (s : State) (h : isDefaultRow i = true) : exec i s = .next (acknowledge s) := by
  cases i
  case setfreq | spliton | splitoff | rdfreq | mode | ptton | pttoff | vfotog | rdlegacy | rdrxs | rdtxs =>
    exact absurd h Bool.false_ne_true
  all_goals rfl

theorem isDefaultRow_instanceRow (row : OpcodeRow) (hr : row ∈ instanceRows) (p1 p2 p3 p4 : Byte) :
    isDefaultRow (row.2 p1 p2 p3 p4) = true := by
  simp only [instanceRows, List.mem_cons, List.not_mem_nil, or_false] at hr
  rcases hr with rfl | rfl | rfl | rfl | rfl | rfl | rfl | rfl | rfl | rfl | rfl | rfl | rfl <;> rfl

/-- An opcode that is no handled value selects a row of the default rule (R52). -/
theorem isDefaultRow_decodeWith (m : OpcodeMap) (f : Frame) (h : f.cmd ∉ m.handled) :
    isDefaultRow (decodeWith m f) = true := by
  rcases decodeWith_cases m f with ⟨row, hr, hcmd, -⟩ | ⟨row, hr, -, -, hdec⟩ | ⟨-, -, hdec⟩
  · exact absurd (hcmd ▸ List.mem_map_of_mem (f := Prod.fst) hr) h
  · rw [hdec, isDefaultRow_instanceRow row hr]
  · rw [hdec]; rfl

theorem exec_decodeWith_of_not_handled (m : OpcodeMap) (f : Frame) (s : State) (h : f.cmd ∉ m.handled) :
    exec (decodeWith m f) s = .next (acknowledge s) :=
  exec_of_isDefaultRow _ s (isDefaultRow_decodeWith m f h)

/-- The handled commands other than `SETFREQ`, `MODE` and `RDLEGACY` use no parameter byte (R49). -/
theorem exec_handledRow_ignores_parameters (m : OpcodeMap) (row : OpcodeRow) (hr : row ∈ handledRows m)
    (hset : row.1 ≠ m.setFreq) (hmode : row.1 ≠ m.mode) (hlegacy : row.1 ≠ opLegacy)
    (p1 p2 p3 p4 q1 q2 q3 q4 : Byte) (s : State) : exec (row.2 p1 p2 p3 p4) s = exec (row.2 q1 q2 q3 q4) s := by
  simp only [handledRows, List.mem_cons, List.not_mem_nil, or_false] at hr
  rcases hr with rfl | rfl | rfl | rfl | rfl | rfl | rfl | rfl | rfl | rfl | rfl
  · exact absurd rfl hset
  iterate 3 · rfl
  · exact absurd rfl hmode
  iterate 3 · rfl
  · exact absurd rfl hlegacy
  iterate 2 · rfl

/-! ### The byte of `RDRXS` -/

/-- Only the discriminator's flag is raised (R22, R101). -/
theorem rxStatusByte_eq (l : RxLayout) : rxStatusByte l = (9 &&& 0x0F) ||| flagAt true l.discOff := by
  simp [rxStatusByte, buildRxStatus, flagAt]

/-- Above the meter's nibble, bit `k` is the discriminator's flag (R57). -/
theorem rxStatusByte_getLsbD (l : RxLayout) (k : Nat) (hlow : 4 ≤ k) (hhigh : k ≤ 7) :
    (rxStatusByte l).getLsbD k = decide (k = l.discOff) := by
  rw [rxStatusByte_eq, BitVec.getLsbD_or, magnitude_getLsbD, flagAt_getLsbD]
  simp [Nat.not_lt.2 hlow, Nat.lt_succ_of_le hhigh]

/-- The byte at each of the four positions (R57). -/
theorem rxStatusByte_values (l : RxLayout) (hlow : 4 ≤ l.discOff) (hhigh : l.discOff ≤ 7) :
    rxStatusByte l = 0x19 ∨ rxStatusByte l = 0x29 ∨ rxStatusByte l = 0x49 ∨ rxStatusByte l = 0x89 := by
  rw [rxStatusByte_eq]
  interval_cases l.discOff <;> decide

/-! ### The statements of 30_encoding.md -/

/-- Settles O3: an instruction of a row is found again under the row's opcode byte, for the handled rows by R51 and for
the rows of the default rule by well-formedness. -/
theorem decodeOfEncodeIsTheInstruction : Obligations.DecodeOfEncodeIsTheInstruction := by
  intro m hm i hwf
  rcases instr_row_cases m i with
    ⟨row, hr, p1, p2, p3, p4, rfl⟩ | ⟨row, hr, p1, p2, p3, p4, rfl⟩ | ⟨p1, p2, p3, p4, cmd, rfl⟩
  · rw [encodeWith_handledRow m row hr, decodeWith_handledRow m hm row hr]
  · rw [encodeWith_instanceRow m row hr]
    exact decodeWith_instanceRow m row hr ((wellFormedFor_instanceRow m row hr _ _ _ _).1 hwf) _ _ _ _
  · obtain ⟨hnot, hno⟩ := (wellFormedFor_defaultOp m p1 p2 p3 p4 cmd).1 hwf
    exact (decodeWith_of_not_handled m _ hnot).trans (decodeDefaultRow_of_no_instance _ hno)

/-- Settles O4: the row a frame is read as has the frame's opcode byte, and the check of well-formedness is what made
the decoder choose that row. -/
theorem encodeOfDecodeIsTheFrame : Obligations.EncodeOfDecodeIsTheFrame := by
  intro m f
  rcases decodeWith_cases m f with
    ⟨row, hr, hcmd, hdec⟩ | ⟨row, hr, hcmd, hnot, hdec⟩ | ⟨hnot, hno, hdec⟩ <;> rw [hdec]
  · exact ⟨by rw [encodeWith_handledRow m row hr, ← hcmd], wellFormedFor_handledRow m row hr _ _ _ _⟩
  · exact ⟨by rw [encodeWith_instanceRow m row hr, ← hcmd],
      (wellFormedFor_instanceRow m row hr _ _ _ _).2 (hcmd ▸ hnot)⟩
  · exact ⟨rfl, (wellFormedFor_defaultOp m _ _ _ _ _).2 ⟨hnot, hno⟩⟩

/-- Settles O6: such an opcode selects a row of the default rule, and R51 keeps 0x99 out of the handled values. -/
theorem everyOtherOpcodeIsAcknowledged : Obligations.EveryOtherOpcodeIsAcknowledged :=
  ⟨fun m f s h => (exec_decodeWith_of_not_handled m f s h).trans (congrArg _ (acknowledge_eq s)), fun _ hm => hm.2⟩

/-- Settles O7: two frames with one handled opcode are read as one row, whose meaning drops the ignored bytes; any
other opcode is acknowledged. -/
theorem ignoredParametersChangeNothing : Obligations.IgnoredParametersChangeNothing := by
  intro m hm p1 p2 p3 p4 q1 q2 q3 q4 cmd s
  refine ⟨fun hset hmode hlegacy => ?_, ?_, ?_⟩
  · by_cases hcmd : cmd ∈ m.handled
    · rw [← handledRows_keys] at hcmd
      obtain ⟨row, hr, rfl⟩ := List.mem_map.1 hcmd
      rw [decodeWith_handledRow m hm row hr, decodeWith_handledRow m hm row hr]
      exact exec_handledRow_ignores_parameters m row hr hset hmode hlegacy _ _ _ _ _ _ _ _ s
    · rw [exec_decodeWith_of_not_handled m _ s hcmd, exec_decodeWith_of_not_handled m _ s hcmd]
  · have hdec := decodeWith_handledRow m hm (m.mode, .mode) (by simp [handledRows])
    rw [hdec, hdec]
    rfl
  · have hdec := decodeWith_handledRow m hm (opLegacy, .rdlegacy) (by simp [handledRows])
    rw [hdec, hdec]
    rfl

/-- Settles O14: the byte is 9 with the one flag above it, at one of four positions. -/
theorem rxStatusReplyHasOneFlag : Obligations.RxStatusReplyHasOneFlag := by
  intro l hl
  obtain ⟨hlow, hhigh⟩ := hl.2 l.discOff (by simp)
  have hvalues := rxStatusByte_values l hlow hhigh
  refine ⟨?_, fun k hk4 hk7 => ?_, hvalues⟩
  · rcases hvalues with h | h | h | h <;> rw [h] <;> decide
  · rw [rxStatusByte_getLsbD l k hk4 hk7, decide_eq_true_iff]

/-- Settles O1: each opcode byte selects its row in the presumed map (R50). -/
theorem tableWordsDecodeToTheirRows : Obligations.TableWordsDecodeToTheirRows :=
  ⟨rfl, rfl, rfl, rfl, rfl, rfl, rfl, rfl⟩

/-- Settles O2: the four constraints are finite checks of the chosen values (R51, R56, R59). -/
theorem chosenParametersMeetTheConstraints : Obligations.ChosenParametersMeetTheConstraints :=
  ⟨rfl, by decide, by decide, by decide, by decide⟩

end Sys2Proof.Machine

/-! SUPPORT. The codec of 40_codec.md: the digits of a number, a BCD field through its eight nibbles, the nibble helpers
bit by bit, and a status register as a magnitude with a list of flags. -/

namespace Sys2Proof.Machine

/-! ### Decimal digits (R64) -/

@[simp] theorem digitsOf_length (n count : Nat) : (digitsOf n count).length = count := by simp [digitsOf]

theorem digitsOf_getElem? (n count i : Nat) (h : i < count) : (digitsOf n count)[i]? = some (n / 10 ^ i % 10) := by
  simp [digitsOf, h]

theorem lt_ten_of_mem_digitsOf (n count d : Nat) (h : d ∈ digitsOf n count) : d < 10 := by
  obtain ⟨i, -, rfl⟩ := List.mem_map.1 h
  exact Nat.mod_lt _ (by decide)

/-- The digits stand for the number without its digits from `count` on. -/
theorem ofDigits_digitsOf (n count : Nat) : Nat.ofDigits 10 (digitsOf n count) = n % 10 ^ count := by
  induction count with
  | zero => simp [digitsOf, Nat.mod_one]
  | succ count ih =>
    rw [digitsOf_succ, Nat.ofDigits_append, ih, digitsOf_length, Nat.ofDigits_singleton, ← Nat.mod_pow_succ]

/-- The digits of a number are its last digit and the digits of its tens. -/
theorem digitsOf_succ_eq_cons (n count : Nat) : digitsOf n (count + 1) = n % 10 :: digitsOf (n / 10) count := by
  simp [digitsOf, List.range_succ_eq_map, Nat.div_div_eq_div_mul, Nat.pow_succ']

/-- Decimal digits are the digits of the number they stand for. -/
theorem digitsOf_ofDigits (ds : List Nat) (h : ∀ d ∈ ds, d < 10) : digitsOf (Nat.ofDigits 10 ds) ds.length = ds := by
  induction ds with
  | nil => rfl
  | cons d ds ih =>
    obtain ⟨hd, hds⟩ := List.forall_mem_cons.1 h
    have hmod : Nat.ofDigits 10 (d :: ds) % 10 = d := by rw [Nat.ofDigits_cons]; omega
    have hdiv : Nat.ofDigits 10 (d :: ds) / 10 = Nat.ofDigits 10 ds := by rw [Nat.ofDigits_cons]; omega
    rw [List.length_cons, digitsOf_succ_eq_cons, hmod, hdiv, ih hds]

/-- The first `count` digits depend on the number modulo `10 ^ count` alone. -/
theorem digitsOf_mod (n count : Nat) : digitsOf (n % 10 ^ count) count = digitsOf n count := by
  have h := digitsOf_ofDigits (digitsOf n count) (lt_ten_of_mem_digitsOf n count)
  rwa [ofDigits_digitsOf, digitsOf_length] at h

/-! ### The BCD field (R65 to R67) -/

/-- The eight nibbles of a BCD field, the least significant first. -/
def bcdNibbles (b0 b1 b2 b3 : Byte) : List Nat :=
  [b3.toNat % 16, b3.toNat / 16, b2.toNat % 16, b2.toNat / 16, b1.toNat % 16, b1.toNat / 16, b0.toNat % 16, b0.toNat / 16]

/-- The value of four bytes in their nibbles, decimal or not: 32 bits do not overflow (R66). -/
theorem decodeFrequencyBCD_toNat (b0 b1 b2 b3 : Byte) : (decodeFrequencyBCD b0 b1 b2 b3).toNat =
    10 * ((10 * (b0.toNat / 16) + b0.toNat % 16) * 1000000 + (10 * (b1.toNat / 16) + b1.toNat % 16) * 10000 +
      (10 * (b2.toNat / 16) + b2.toNat % 16) * 100 + (10 * (b3.toNat / 16) + b3.toNat % 16)) := by
  simp only [decodeFrequencyBCD, accumulateBCD_eq, BitVec.toNat_ofNat]
  omega

theorem decodeFrequencyBCD_eq_ofDigits (b0 b1 b2 b3 : Byte) :
    (decodeFrequencyBCD b0 b1 b2 b3).toNat = 10 * Nat.ofDigits 10 (bcdNibbles b0 b1 b2 b3) := by
  rw [decodeFrequencyBCD_toNat]
  simp only [bcdNibbles, Nat.ofDigits_cons, Nat.ofDigits_nil]
  ring

/-- A byte is two values below 16 packed exactly when they are its nibbles. -/
theorem packDigits_eq_iff (hi lo : Nat) (b : Byte) (h : hi < 16) (l : lo < 16) :
    packDigits hi lo = b ↔ b.toNat / 16 = hi ∧ b.toNat % 16 = lo := by
  rw [← BitVec.toNat_inj, packDigits_toNat hi lo h l]
  omega

/-- The four digit pairs of R65. -/
theorem encodeFrequencyBCD_eq (f : Freq) : encodeFrequencyBCD f =
    [packDigits (f.toNat / 10 ^ 8 % 10) (f.toNat / 10 ^ 7 % 10),
      packDigits (f.toNat / 10 ^ 6 % 10) (f.toNat / 10 ^ 5 % 10),
      packDigits (f.toNat / 10 ^ 4 % 10) (f.toNat / 10 ^ 3 % 10),
      packDigits (f.toNat / 10 ^ 2 % 10) (f.toNat / 10 ^ 1 % 10)] := rfl

/-- Digits 1 to 8 of a number are the first eight of its tens. -/
theorem digitsOf_tens (n : Nat) : digitsOf (n / 10) 8 = [n / 10 ^ 1 % 10, n / 10 ^ 2 % 10, n / 10 ^ 3 % 10, n / 10 ^ 4 % 10,
    n / 10 ^ 5 % 10, n / 10 ^ 6 % 10, n / 10 ^ 7 % 10, n / 10 ^ 8 % 10] := by
  simp only [digitsOf, Nat.div_div_eq_div_mul, ← Nat.pow_succ']
  rfl

/-- Four bytes encode a frequency exactly when their nibbles are its digits 1 to 8 (R65). -/
theorem encodeFrequencyBCD_eq_iff (f : Freq) (b0 b1 b2 b3 : Byte) :
    encodeFrequencyBCD f = [b0, b1, b2, b3] ↔ bcdNibbles b0 b1 b2 b3 = digitsOf (f.toNat / 10) 8 := by
  have hdigit : ∀ i, f.toNat / 10 ^ i % 10 < 16 := fun i => by omega
  rw [encodeFrequencyBCD_eq, digitsOf_tens, bcdNibbles]
  simp only [List.cons.injEq, packDigits_eq_iff, hdigit, and_true]
  tauto

theorem encodeFrequencyBCD_bytes (f : Freq) : ∃ b0 b1 b2 b3, encodeFrequencyBCD f = [b0, b1, b2, b3] :=
  ⟨_, _, _, _, encodeFrequencyBCD_eq f⟩

/-- The encoding keeps the digits 1 to 8 of a frequency and nothing else. -/
theorem encodeFrequencyBCD_congr (f g : Freq) (h : f.toNat / 10 % 10 ^ 8 = g.toNat / 10 % 10 ^ 8) :
    encodeFrequencyBCD f = encodeFrequencyBCD g := by
  obtain ⟨b0, b1, b2, b3, hg⟩ := encodeFrequencyBCD_bytes g
  rw [hg, encodeFrequencyBCD_eq_iff, ← digitsOf_mod, h, digitsOf_mod, (encodeFrequencyBCD_eq_iff g b0 b1 b2 b3).1 hg]

/-- Decoding what was encoded gives the part the encoding keeps (R67). -/
theorem decodeFrequencyBCD_of_encode (f : Freq) (b0 b1 b2 b3 : Byte) (h : encodeFrequencyBCD f = [b0, b1, b2, b3]) :
    (decodeFrequencyBCD b0 b1 b2 b3).toNat = 10 * (f.toNat / 10 % 10 ^ 8) := by
  rw [decodeFrequencyBCD_eq_ofDigits, (encodeFrequencyBCD_eq_iff f b0 b1 b2 b3).1 h, ofDigits_digitsOf]

/-- Encoding what was decoded gives a field of decimal nibbles back (R67). -/
theorem encodeFrequencyBCD_of_decode (b0 b1 b2 b3 : Byte) (h : ∀ d ∈ bcdNibbles b0 b1 b2 b3, d < 10) :
    encodeFrequencyBCD (decodeFrequencyBCD b0 b1 b2 b3) = [b0, b1, b2, b3] := by
  rw [encodeFrequencyBCD_eq_iff, decodeFrequencyBCD_eq_ofDigits, Nat.mul_div_cancel_left _ (by decide)]
  exact (digitsOf_ofDigits _ h).symm

/-! ### The nibble helpers bit by bit (R68 to R71) -/

theorem getHighNibble_getLsbD (b : Byte) (k : Nat) : (getHighNibble b).getLsbD k = b.getLsbD (4 + k) := by
  simp [getHighNibble]

theorem getLowNibble_getLsbD (b : Byte) (k : Nat) : (getLowNibble b).getLsbD k = (b.getLsbD k && decide (k < 4)) :=
  magnitude_getLsbD b k

theorem setHighNibble_eq (b v : Byte) : setHighNibble b v = getLowNibble b ||| ((v &&& 0x0F) <<< 4) := rfl

theorem setHighNibble_getLsbD (b v : Byte) (k : Nat) (hk : k < 8) :
    (setHighNibble b v).getLsbD k = if k < 4 then b.getLsbD k else v.getLsbD (k - 4) := by
  rw [setHighNibble_eq, BitVec.getLsbD_or, BitVec.getLsbD_shiftLeft, magnitude_getLsbD, getLowNibble_getLsbD]
  by_cases h4 : k < 4
  · simp [h4]
  · simp [h4, hk, show k - 4 < 4 by omega]

theorem setLowNibble_getLsbD (b v : Byte) (k : Nat) (hk : k < 8) :
    (setLowNibble b v).getLsbD k = if k < 4 then v.getLsbD k else b.getLsbD k := by
  have hmask : (0xF0 : Byte).getLsbD k = decide (¬ k < 4) := by
    revert k
    decide
  rw [setLowNibble, BitVec.getLsbD_or, BitVec.getLsbD_and, magnitude_getLsbD, hmask]
  by_cases h4 : k < 4 <;> simp [h4]

/-- A value that fits into a nibble is its own low nibble (D16). -/
theorem getLowNibble_of_le (v : Byte) (h : v.toNat ≤ 15) : getLowNibble v = v :=
  BitVec.eq_of_toNat_eq ((getLowNibble_toNat v).trans (Nat.mod_eq_of_lt (Nat.lt_succ_of_le h)))

theorem getHighNibble_setHighNibble (b v : Byte) : getHighNibble (setHighNibble b v) = v &&& 0x0F := by
  apply BitVec.eq_of_getLsbD_eq
  intro k hk
  rw [getHighNibble_getLsbD, magnitude_getLsbD]
  by_cases h4 : k < 4
  · rw [setHighNibble_getLsbD b v _ (by omega)]
    simp [h4]
  · rw [BitVec.getLsbD_of_ge _ _ (by omega)]
    simp [h4]

theorem getLowNibble_setHighNibble (b v : Byte) : getLowNibble (setHighNibble b v) = getLowNibble b := by
  apply BitVec.eq_of_getLsbD_eq
  intro k hk
  rw [getLowNibble_getLsbD, getLowNibble_getLsbD, setHighNibble_getLsbD b v k hk]
  by_cases h4 : k < 4 <;> simp [h4]

theorem getLowNibble_setLowNibble (b v : Byte) : getLowNibble (setLowNibble b v) = v &&& 0x0F := by
  apply BitVec.eq_of_getLsbD_eq
  intro k hk
  rw [getLowNibble_getLsbD, magnitude_getLsbD, setLowNibble_getLsbD b v k hk]
  by_cases h4 : k < 4 <;> simp [h4]

theorem getHighNibble_setLowNibble (b v : Byte) : getHighNibble (setLowNibble b v) = getHighNibble b := by
  apply BitVec.eq_of_getLsbD_eq
  intro k hk
  rw [getHighNibble_getLsbD, getHighNibble_getLsbD]
  by_cases h4 : k < 4
  · rw [setLowNibble_getLsbD b v _ (by omega)]
    simp
  · rw [BitVec.getLsbD_of_ge _ _ (by omega), BitVec.getLsbD_of_ge _ _ (by omega)]

/-- The packing law of R71. -/
theorem setHighNibble_setLowNibble_zero (hi lo : Byte) (hhi : hi.toNat ≤ 15) (hlo : lo.toNat ≤ 15) :
    setHighNibble (setLowNibble 0 lo) hi = (hi <<< 4) ||| lo := by
  rw [setHighNibble_eq, getLowNibble_setLowNibble, ← getLowNibble, ← getLowNibble, getLowNibble_of_le lo hlo,
    getLowNibble_of_le hi hhi, BitVec.or_comm]

/-! ### A status register (R56, R72, R73) -/

/-- A magnitude in the low nibble and flags, each with its bit position. -/
def statusRegister (magnitude : Byte) (flags : List (Bool × Nat)) : Byte :=
  flags.foldl (fun byte flag => byte ||| flagAt flag.1 flag.2) (magnitude &&& 0x0F)

theorem buildRxStatus_eq_statusRegister (l : RxLayout) (meter : Byte) (discOff sql code dummy : Bool) :
    buildRxStatus l meter discOff sql code dummy =
      statusRegister meter [(discOff, l.discOff), (sql, l.sql), (code, l.code), (dummy, l.dummy)] := rfl

theorem buildTxStatus_eq_statusRegister (l : TxLayout) (power : Byte) (pttOff splitOff hiSwr dummy : Bool) :
    buildTxStatus l power pttOff splitOff hiSwr dummy =
      statusRegister power [(pttOff, l.pttOff), (splitOff, l.splitOff), (hiSwr, l.hiSwr), (dummy, l.dummy)] := rfl

/-- A bit of a byte with flags laid over it is the byte's own or that of a flag at its position. -/
theorem foldl_flagAt_getLsbD (flags : List (Bool × Nat)) (byte : Byte) (k : Nat) (hk : k < 8) :
    (flags.foldl (fun byte flag => byte ||| flagAt flag.1 flag.2) byte).getLsbD k =
      (byte.getLsbD k || flags.any fun flag => flag.1 && decide (k = flag.2)) := by
  induction flags generalizing byte with
  | nil => simp
  | cons flag flags ih =>
    rw [List.foldl_cons, ih, BitVec.getLsbD_or, flagAt_getLsbD]
    simp [hk, Bool.or_assoc]

theorem statusRegister_getLsbD (v : Byte) (flags : List (Bool × Nat)) (k : Nat) (hk : k < 8) :
    (statusRegister v flags).getLsbD k =
      ((v.getLsbD k && decide (k < 4)) || flags.any fun flag => flag.1 && decide (k = flag.2)) := by
  rw [statusRegister, foldl_flagAt_getLsbD flags _ k hk, magnitude_getLsbD]

/-- Flags above bit 3 leave the magnitude alone. -/
theorem getLowNibble_statusRegister (v : Byte) (flags : List (Bool × Nat))
    (h : ∀ p ∈ flags.map Prod.snd, 4 ≤ p ∧ p ≤ 7) : getLowNibble (statusRegister v flags) = v &&& 0x0F := by
  apply BitVec.eq_of_getLsbD_eq
  intro k hk
  rw [getLowNibble_getLsbD, magnitude_getLsbD, statusRegister_getLsbD v flags k hk]
  by_cases h4 : k < 4
  · have hnone : (flags.any fun flag => flag.1 && decide (k = flag.2)) = false := by
      rw [List.any_eq_false]
      intro flag hflag
      have := (h flag.2 (List.mem_map_of_mem hflag)).1
      simp [show k ≠ flag.2 by omega]
    rw [hnone, Bool.or_false, Bool.and_assoc, Bool.and_self]
  · simp [h4]

/-- With pairwise different positions above bit 3, the bit at a flag's position is that flag. -/
theorem statusRegister_getLsbD_of_mem (v : Byte) (flags : List (Bool × Nat)) (hnodup : (flags.map Prod.snd).Nodup)
    (h : ∀ p ∈ flags.map Prod.snd, 4 ≤ p ∧ p ≤ 7) (flag : Bool) (p : Nat) (hflag : (flag, p) ∈ flags) :
    (statusRegister v flags).getLsbD p = flag := by
  obtain ⟨hlow, hhigh⟩ := h p (List.mem_map_of_mem (f := Prod.snd) hflag)
  rw [statusRegister_getLsbD v flags p (Nat.lt_succ_of_le hhigh), decide_eq_false (Nat.not_lt.2 hlow), Bool.and_false,
    Bool.false_or, Bool.eq_iff_iff, List.any_eq_true]
  constructor
  · rintro ⟨⟨flag', q⟩, hmem, hq⟩
    obtain ⟨hset, rfl⟩ : flag' = true ∧ p = q := by simpa using hq
    have hsame : (flag', p) = (flag, p) := List.inj_on_of_nodup_map hnodup hmem hflag rfl
    exact (congrArg Prod.fst hsame).symm.trans hset
  · rintro rfl
    exact ⟨_, hflag, by simp⟩

/-- Four flags at pairwise different positions above bit 3, and the magnitude, are all read back. -/
theorem statusRegister_four_flags (v : Byte) (f0 f1 f2 f3 : Bool) (p0 p1 p2 p3 : Nat) (hnodup : [p0, p1, p2, p3].Nodup)
    (hpos : ∀ p ∈ [p0, p1, p2, p3], 4 ≤ p ∧ p ≤ 7) :
    getLowNibble (statusRegister v [(f0, p0), (f1, p1), (f2, p2), (f3, p3)]) = v &&& 0x0F ∧
    (statusRegister v [(f0, p0), (f1, p1), (f2, p2), (f3, p3)]).getLsbD p0 = f0 ∧
    (statusRegister v [(f0, p0), (f1, p1), (f2, p2), (f3, p3)]).getLsbD p1 = f1 ∧
    (statusRegister v [(f0, p0), (f1, p1), (f2, p2), (f3, p3)]).getLsbD p2 = f2 ∧
    (statusRegister v [(f0, p0), (f1, p1), (f2, p2), (f3, p3)]).getLsbD p3 = f3 := by
  have hflag := statusRegister_getLsbD_of_mem v [(f0, p0), (f1, p1), (f2, p2), (f3, p3)] hnodup hpos
  exact ⟨getLowNibble_statusRegister v _ hpos, hflag f0 p0 (by simp), hflag f1 p1 (by simp), hflag f2 p2 (by simp),
    hflag f3 p3 (by simp)⟩

/-- Without a flag raised the register is its magnitude. -/
theorem buildTxStatus_no_flags (l : TxLayout) (power : Byte) :
    buildTxStatus l power false false false false = power &&& 0x0F := by
  simp [buildTxStatus, flagAt]

/-! ### The statements of 40_codec.md -/

/-- Settles O8: entry `i` is digit `i` by definition, and the digits sum up to the remainder by induction on their count. -/
theorem digitsOfANumber : Obligations.DigitsOfANumber := by
  refine ⟨fun n count => ⟨digitsOf_length n count, digitsOf_getElem? n count,
    fun d hd => Nat.le_of_lt_succ (lt_ten_of_mem_digitsOf n count d hd), ofDigits_digitsOf n count,
    fun i hi hn => ?_⟩, rfl⟩
  rw [digitsOf_getElem? n count i hi, Nat.div_eq_of_lt hn]

/-- Settles O9: the nibbles of the encoded bytes are the digits 1 to 8, which the number's tens below `10 ^ 8` fix. -/
theorem encodeFrequencyPacksDigitPairs : Obligations.EncodeFrequencyPacksDigitPairs := by
  refine ⟨fun f => ?_, fun f g h => encodeFrequencyBCD_congr f g (by omega), by decide, by decide, by decide, by decide,
    by decide⟩
  obtain ⟨b0, b1, b2, b3, hf⟩ := encodeFrequencyBCD_bytes f
  have hdigits := (encodeFrequencyBCD_eq_iff f b0 b1 b2 b3).1 hf
  rw [digitsOf_tens, bcdNibbles] at hdigits
  refine ⟨b0, b1, b2, b3, hf, ?_⟩
  simp only [getHighNibble_toNat, getLowNibble_toNat]
  simp only [List.cons.injEq, and_true] at hdigits
  tauto

/-- Settles O10: the accumulated nibbles in closed form, each nibble at most 15. -/
theorem decodeFrequencyAddsUpNibbles : Obligations.DecodeFrequencyAddsUpNibbles := by
  refine ⟨fun b0 b1 b2 b3 => ?_, by decide, by decide, by decide, by decide⟩
  have hvalue := decodeFrequencyBCD_toNat b0 b1 b2 b3
  exact ⟨hvalue, by omega, by omega⟩

/-- Settles O11: encoding keeps the digits 1 to 8 and decoding reads them back. -/
theorem frequencyRoundTrips : Obligations.FrequencyRoundTrips := by
  refine ⟨fun f => ?_, fun b0 b1 b2 b3 h => ?_, by decide⟩
  · obtain ⟨b0, b1, b2, b3, hf⟩ := encodeFrequencyBCD_bytes f
    have hvalue := decodeFrequencyBCD_of_encode f b0 b1 b2 b3 hf
    exact ⟨b0, b1, b2, b3, hf, by omega, fun hle hmod => BitVec.eq_of_toNat_eq (by omega), fun hlt => by omega⟩
  · apply encodeFrequencyBCD_of_decode
    simp only [getHighNibble_toNat, getLowNibble_toNat, List.forall_mem_cons] at h
    simp only [bcdNibbles, List.forall_mem_cons, Nat.lt_succ_iff]
    tauto

/-- Settles O12: the laws hold bit by bit, and a value of one nibble passes the setters' mask. -/
theorem nibbleHelpersKeepTheOtherNibble : Obligations.NibbleHelpersKeepTheOtherNibble :=
  ⟨fun b v => ⟨getHighNibble_toNat b, getLowNibble_toNat b, getHighNibble_setHighNibble b v,
    getLowNibble_setHighNibble b v, getLowNibble_setLowNibble b v, getHighNibble_setLowNibble b v⟩,
    setHighNibble_setLowNibble_zero, rfl, rfl, rfl, rfl⟩

/-- Settles O13: legal positions are pairwise different and above the meter. -/
theorem rxStatusHoldsMeterAndFlags : Obligations.RxStatusHoldsMeterAndFlags := by
  intro l hl meter discOff sql code dummy
  rw [buildRxStatus_eq_statusRegister]
  exact statusRegister_four_flags meter discOff sql code dummy _ _ _ _ hl.1 hl.2

/-- Settles O15: the byte of `RDTXS` is the register at power 0xF with the two negated flags. -/
theorem txStatusHoldsPowerAndFlags : Obligations.TxStatusHoldsPowerAndFlags := by
  intro l hl
  have hfields (power : Byte) (pttOff splitOff hiSwr dummy : Bool) :=
    statusRegister_four_flags power pttOff splitOff hiSwr dummy _ _ _ _ hl.1 hl.2
  simp only [← buildTxStatus_eq_statusRegister] at hfields
  exact ⟨hfields, fun transmitting split => hfields 0xF (!transmitting) (!split) false false, buildTxStatus_no_flags l 0xF⟩

end Sys2Proof.Machine

/-! SUPPORT. A step row by row (R77 to R81), as equations in the state after the environment's move, and what the
environment's next move leaves of the framer. -/

namespace Sys2Proof.Machine

/-! ### The environment's next move -/

theorem deliver_of_no_input (s : State) (h : s.schedule = []) : deliver s = s := by
  simp [deliver, h]

theorem deliver_of_input (s : State) (x : TickInput) (rest : List TickInput) (h : s.schedule = x :: rest) :
    deliver s = applyInput x { s with schedule := rest } := by
  simp [deliver, h]

/-- A move that is no reset touches the time, the queue and the radio only (R128). -/
theorem applyInput_of_no_reset (x : TickInput) (s : State) (h : x.reset = false) :
    applyInput x s =
      { s with now := s.now + x.elapsed, rx := s.rx ++ x.arrivals, radio := x.radio.getD s.radio } := by
  simp [applyInput, h]

/-- The placed frame meets no reset (log 2). -/
theorem placeFrame_next_not_reset (f : Frame) (s : State) (x : TickInput) (rest : List TickInput)
    (h : (placeFrame f s).schedule = x :: rest) : x.reset = false := by
  cases hsched : s.schedule with
  | nil => simp [placeFrame, hsched] at h
  | cons y ys =>
    simp only [placeFrame, hsched, List.cons.injEq] at h
    rw [← h.1]

/-- Whatever the schedule, the placed frame is there when the tick begins: four bytes in `buf`, the fifth next to be taken. -/
theorem deliver_placeFrame (f : Frame) (s : State) :
    (deliver (placeFrame f s)).fill = 4 ∧ (deliver (placeFrame f s)).buf = { f with cmd := s.buf.cmd } ∧
      ∃ later, (deliver (placeFrame f s)).rx = f.cmd :: later := by
  rcases deliver_cases (placeFrame f s) with ⟨-, hd⟩ | ⟨x, rest, hsched, hd⟩ <;> rw [hd]
  · exact ⟨rfl, rfl, _, rfl⟩
  · rw [applyInput_of_no_reset x _ (placeFrame_next_not_reset f s x rest hsched)]
    exact ⟨rfl, rfl, _, rfl⟩

/-! ### What a command and the return to `Idle` leave unchanged -/

/-- No command writes the opcode byte of `buf` (R112). -/
@[simp] theorem commandBuf_cmd (P : Params) (i : Instr) (s : State) : (commandBuf P i s).cmd = s.buf.cmd := by
  cases i <;> rfl

@[simp] theorem afterFrame_buf_cmd (P : Params) (s : State) : (afterFrame P s).buf.cmd = s.buf.cmd :=
  commandBuf_cmd P _ _

@[simp] theorem afterFrame_armed (P : Params) (s : State) : (afterFrame P s).armed = false := rfl
@[simp] theorem afterFrame_deadline (P : Params) (s : State) : (afterFrame P s).deadline = s.deadline := rfl

/-! ### A step, row by row -/

section
variable {s : State} {b : Byte} {rest : List Byte}

/-- An empty tick with no deadline passed changes nothing (R77). -/
theorem step_of_no_timeout (hrx : (deliver s).rx = [])
    (hkeep : ¬((deliver s).armed = true ∧ (deliver s).deadline < (deliver s).now)) : step s = .next (deliver s) := by
  obtain ⟨-, hempty, -⟩ := stepForEveryParameterChoice params s
  rw [step_eq_stepWith, hempty hrx, if_neg hkeep]

/-- An empty tick past the deadline returns to `Idle` (R78). -/
theorem step_of_timeout (hrx : (deliver s).rx = [])
    (hout : (deliver s).armed = true ∧ (deliver s).deadline < (deliver s).now) :
    step s = .next { deliver s with fill := 0, armed := false } := by
  obtain ⟨-, hempty, -⟩ := stepForEveryParameterChoice params s
  rw [step_eq_stepWith, hempty hrx, if_pos hout]

/-- The first byte is stored at index 0 and arms the deadline (R79). -/
theorem step_of_first_byte (hrx : (deliver s).rx = b :: rest) (h0 : (deliver s).fill = 0) :
    step s = .next
      { deliver s with
        rx := rest
        buf := { (deliver s).buf with p1 := b }
        fill := 1
        deadline := (deliver s).now + 500
        armed := true } := by
  obtain ⟨-, -, hbyte⟩ := stepForEveryParameterChoice params s
  obtain ⟨hfirst, -, -⟩ := hbyte b rest hrx
  exact (step_eq_stepWith s).trans (hfirst h0)

/-- A later byte below completion is stored, and only the fill index moves on (R80). -/
theorem step_of_later_byte (hrx : (deliver s).rx = b :: rest) (h0 : (deliver s).fill ≠ 0)
    (h4 : (deliver s).fill ≠ 4) :
    step s = .next
      { deliver s with
        rx := rest, buf := (deliver s).buf.set (deliver s).fill b, fill := (deliver s).fill + 1 } := by
  obtain ⟨-, -, hbyte⟩ := stepForEveryParameterChoice params s
  obtain ⟨-, hlater, -⟩ := hbyte b rest hrx
  exact (step_eq_stepWith s).trans (hlater h0 h4)

/-- The fifth byte completes the frame, which is dispatched (R81). -/
theorem step_of_completing_byte (hrx : (deliver s).rx = b :: rest) (h4 : (deliver s).fill = 4) :
    step s = .next
      (afterFrame params { deliver s with rx := rest, buf := { (deliver s).buf with cmd := b } }) := by
  have h0 : (deliver s).fill ≠ 0 := by simp [h4]
  rw [step_eq_stepWith, stepWith, tickWith_of_fifth_byte params _ b rest hrx h4, takeByte_of_filling _ _ _ _ h0, h4,
    frame_set_four]
  rfl

end

@[simp] theorem deliver_dispatched (s : State) : (deliver s).dispatched = s.dispatched :=
  dispatched_of_trace_eq s _ (deliver_trace s)

theorem frame_get_set (f : Frame) (k : Fin 5) (b : Byte) : (f.set k b).get k = b := by
  fin_cases k <;> rfl

/-! ### The deadline in a byte tick (R79, R88) -/

theorem takeByte_with_deadline_of_idle (n : Nat) (b : Byte) (rest : List Byte) (s : State) (d : Nat)
    (h : s.fill = 0) : takeByte n b rest { s with deadline := d } = takeByte n b rest s := by
  rw [takeByte_of_idle n b rest s h, takeByte_of_idle n b rest { s with deadline := d } h]

theorem takeByte_with_deadline_of_filling (n : Nat) (b : Byte) (rest : List Byte) (s : State) (d : Nat)
    (h : s.fill ≠ 0) : takeByte n b rest { s with deadline := d } = { takeByte n b rest s with deadline := d } := by
  rw [takeByte_of_filling n b rest s h, takeByte_of_filling n b rest { s with deadline := d } h]

theorem afterFrame_with_deadline (P : Params) (s : State) (d : Nat) :
    afterFrame P { s with deadline := d } = { afterFrame P s with deadline := d } := rfl

/-! ### A run of bytes that arrive together -/

/-- In `Idle` with an empty queue, bytes that arrive together before the next tick are all counted (R38). -/
theorem run_dispatches_arriving_frames (s : State) (x : TickInput) (later : List TickInput) (b : Byte)
    (bs : List Byte) (hs : NoReset s) (hsched : s.schedule = x :: later) (hidle : s.fill = 0) (hrx : s.rx = [])
    (harr : x.arrivals = b :: bs) :
    ∃ t, Host.Core.run core (bs.length + 1) s = .next t ∧ t.dispatched = s.dispatched ++ framesOf (b :: bs) := by
  have hrxd : (deliver s).rx = b :: bs := by simp [deliver_of_input s x later hsched, applyInput_rx, hrx, harr]
  have hstep := step_of_first_byte hrxd ((deliver_fill_of_noReset s hs).trans hidle)
  obtain ⟨t, hrun, hdisp, -⟩ :=
    run_dispatches_counted_frames bs _ [] (noReset_of_step s _ hs hstep) (List.append_nil bs).symm
  refine ⟨t, (run_succ _ s _ hstep).trans hrun, hdisp.trans ?_⟩
  exact congrArg (· ++ framesOf (b :: bs)) (deliver_dispatched s)

/-! ### The statements of 41_framer.md -/

/-- Settles O24: of the four kinds of tick only the completing one leaves a dispatch mark. -/
theorem dispatchExactlyAtTheFifthByte : Obligations.DispatchExactlyAtTheFifthByte := by
  intro s t ht
  rw [step_eq_stepWith] at ht
  rw [← deliver_dispatched s]
  rcases tickWith_cases params (deliver s) t ht with
    ⟨hrx, -, rfl⟩ | ⟨hrx, -, rfl⟩ | ⟨b, rest, hrx, h4, rfl⟩ | ⟨b, rest, hrx, h4, rfl⟩
  · simp [hrx, dispatched_of_trace_eq (deliver s) _ (toIdle_trace _)]
  · simp [hrx]
  · have htrace : (advance (takeByte params.timeoutMs b rest (deliver s))).trace = (deliver s).trace := by simp
    simp [hrx, h4, dispatched_of_trace_eq _ _ htrace]
  · have htrace : (takeByte params.timeoutMs b rest (deliver s)).trace = (deliver s).trace := by simp
    simp [hrx, h4, dispatched_of_trace_eq _ _ htrace, frame_set_four]

/-- Settles O23: the hypotheses of each row choose the equation of `step` that holds. -/
theorem fillTransitionTable : Obligations.FillTransitionTable := by
  intro s t ht
  refine ⟨fun hrx h0 => ?_, fun b rest hrx h0 => ?_, fun hrx _ hkeep => ?_, fun hrx _ hout => ?_,
    fun b rest hrx h0 h4 => ?_, fun b rest hrx h4 => ?_⟩
  · by_cases hout : (deliver s).armed = true ∧ (deliver s).deadline < (deliver s).now
    · obtain rfl := Host.Outcome.next.inj (ht.symm.trans (step_of_timeout hrx hout))
      exact ⟨rfl, fun hoff => absurd (hoff.symm.trans hout.1) Bool.false_ne_true⟩
    · obtain rfl := Host.Outcome.next.inj (ht.symm.trans (step_of_no_timeout hrx hout))
      exact ⟨h0, fun _ => rfl⟩
  · obtain rfl := Host.Outcome.next.inj (ht.symm.trans (step_of_first_byte hrx h0))
    exact ⟨rfl, rfl, rfl, rfl⟩
  · exact Host.Outcome.next.inj (ht.symm.trans (step_of_no_timeout hrx hkeep))
  · exact Host.Outcome.next.inj (ht.symm.trans (step_of_timeout hrx hout))
  · obtain rfl := Host.Outcome.next.inj (ht.symm.trans (step_of_later_byte hrx h0 h4))
    exact ⟨fill_succ_val _ h4, frame_get_set _ _ b, rfl, rfl⟩
  · obtain rfl := Host.Outcome.next.inj (ht.symm.trans (step_of_completing_byte hrx h4))
    refine ⟨afterFrame_fill _ _, afterFrame_armed _ _, afterFrame_buf_cmd _ _, ?_⟩
    rw [afterFrame_dispatched, ← deliver_dispatched s]
    rfl

/-- Settles O26: each kind of tick takes the head alone; five ticks count five bytes, which are one frame. -/
theorem oneByteATick : Obligations.OneByteATick := by
  refine ⟨fun s t ht => ?_, fun s b0 b1 b2 b3 b4 rest hidle hs hrx => ⟨?_, ?_⟩⟩
  · rw [step_eq_stepWith] at ht
    rcases tickWith_cases params (deliver s) t ht with
      ⟨hrx, -, rfl⟩ | ⟨hrx, -, rfl⟩ | ⟨b, rest, hrx, -, rfl⟩ | ⟨b, rest, hrx, -, rfl⟩ <;> simp [hrx]
  · obtain ⟨t, hrun, hdisp, hfill⟩ := run_dispatches_counted_frames [b0, b1, b2, b3] s (b4 :: rest) hs hrx
    rw [pendingBytes_of_idle s hidle] at hdisp
    exact ⟨t, hrun, Fin.ext (by simpa [hidle] using hfill), hdisp.trans (List.append_nil _)⟩
  · obtain ⟨t, hrun, hdisp, hfill⟩ := run_dispatches_counted_frames [b0, b1, b2, b3, b4] s rest hs hrx
    rw [pendingBytes_of_idle s hidle] at hdisp
    exact ⟨t, hrun, Fin.ext (by simpa [hidle] using hfill), hdisp⟩

/-- Settles O28: the first byte overwrites the deadline, and a later one does not read it. -/
theorem byteTickIgnoresTheDeadline : Obligations.ByteTickIgnoresTheDeadline := by
  intro s d hne
  obtain ⟨b, rest, hrx⟩ := List.exists_cons_of_ne_nil hne
  refine ⟨fun h0 t ht => ?_, fun h0 => ?_⟩
  · rw [tick_eq_tickWith] at ht ⊢
    by_cases h4 : s.fill = 4
    · obtain rfl := Host.Outcome.next.inj (ht.symm.trans (tickWith_of_fifth_byte params s b rest hrx h4))
      rw [tickWith_of_fifth_byte params { s with deadline := d } b rest hrx h4,
        takeByte_with_deadline_of_filling _ _ _ _ _ h0, afterFrame_with_deadline]
    · obtain rfl := Host.Outcome.next.inj (ht.symm.trans (tickWith_of_byte params s b rest hrx h4))
      rw [tickWith_of_byte params { s with deadline := d } b rest hrx h4,
        takeByte_with_deadline_of_filling _ _ _ _ _ h0]
      rfl
  · have h4 : s.fill ≠ 4 := by simp [h0]
    rw [tick_eq_tickWith, tick_eq_tickWith, tickWith_of_byte params { s with deadline := d } b rest hrx h4,
      tickWith_of_byte params s b rest hrx h4, takeByte_with_deadline_of_idle _ _ _ _ _ h0]

/-- Settles O30: the empty tick leaves the framer in `Idle`, and from there the five bytes are counted. -/
theorem staleBytesAreDroppedByAnEmptyTick : Obligations.StaleBytesAreDroppedByAnEmptyTick := by
  intro s x y rest b0 b1 b2 b3 b4 hsched hs hrx hx harmed hout hy
  have hd := deliver_of_input s x _ hsched
  rw [applyInput_of_no_reset x _ (hs x (by simp [hsched])), hrx, hx] at hd
  have hdrop : step s = .next { deliver s with fill := 0, armed := false } :=
    step_of_timeout (by rw [hd]; rfl) (by rw [hd]; exact ⟨harmed, hout⟩)
  obtain ⟨t, hrun, hdisp⟩ := run_dispatches_arriving_frames { deliver s with fill := 0, armed := false } y rest b0
    [b1, b2, b3, b4] (noReset_of_step s _ hs hdrop) (by rw [hd]) rfl (by rw [hd]; rfl) hy
  exact ⟨t, (run_succ 5 s _ hdrop).trans hrun, hdisp.trans (congrArg (· ++ _) (deliver_dispatched s))⟩

/-- Settles O32: the placed frame completes in the tick after the environment's next move, which is no reset. -/
theorem placedWordRunsAtTheNextStep : Obligations.PlacedWordRunsAtTheNextStep := by
  intro s nbits w
  obtain ⟨hfill, hbuf, later, hrx⟩ := deliver_placeFrame (frameOfTableWord nbits w) s
  have hstep := step_of_completing_byte hrx hfill
  refine ⟨_, hstep, (dispatchExactlyAtTheFifthByte _ _ hstep).trans ?_⟩
  simp only [hrx, hfill, hbuf, if_true]
  rfl

/-- Settles O19: either half of the hypothesis rules a timeout out. -/
theorem emptyTickBeforeTheDeadlineDoesNothing : Obligations.EmptyTickBeforeTheDeadlineDoesNothing := by
  rintro s hrx (hoff | hnow)
  · exact step_of_no_timeout hrx fun ⟨harmed, _⟩ => Bool.false_ne_true (hoff.symm.trans harmed)
  · exact step_of_no_timeout hrx fun ⟨_, hout⟩ => Nat.not_lt.2 hnow hout

/-- Settles O20: the hypotheses are those of a timeout. -/
theorem emptyTickAfterTheDeadlineDropsTheFrame : Obligations.EmptyTickAfterTheDeadlineDropsTheFrame :=
  fun _ hrx harmed hnow => step_of_timeout hrx ⟨harmed, hnow⟩

/-- Settles O21: the later bytes at each of their indices, and the fifth. -/
theorem byteTickStoresTheByte : Obligations.ByteTickStoresTheByte := by
  intro s b rest hrx
  have hlater (k : Fin 5) (h0 : k ≠ 0) (h4 : k ≠ 4) (hk : (deliver s).fill = k) :
      step s = .next { deliver s with rx := rest, buf := (deliver s).buf.set k b, fill := k + 1 } := by
    subst hk
    exact step_of_later_byte hrx h0 h4
  exact ⟨step_of_first_byte hrx, hlater 1 (by decide) (by decide), hlater 2 (by decide) (by decide),
    hlater 3 (by decide) (by decide),
    fun h4 => ⟨_, step_of_completing_byte hrx h4, afterFrame_rx _ _, afterFrame_buf_cmd _ _, afterFrame_deadline _ _⟩⟩

/-- Settles O22: `exec` answers the state after the command, from which the framer returns to `Idle`. -/
theorem fifthByteRunsTheDecodedInstruction : Obligations.FifthByteRunsTheDecodedInstruction := by
  rintro s b rest hrx h4 f rfl t ht
  obtain rfl := Host.Outcome.next.inj (exec_eq _ _ ▸ ht)
  exact step_of_completing_byte hrx h4

/-- Settles O27: nothing arrives, so the two times fall under R77 and R78. -/
theorem deadlineIsStrict : Obligations.DeadlineIsStrict := by
  intro s hsched hrx harmed
  have hd := deliver_of_no_input s hsched
  refine ⟨fun hnow => ?_, fun hnow => ?_⟩
  · have hstep := step_of_no_timeout (s := s) (hd.symm ▸ hrx) (by rw [hd]; omega)
    rwa [hd] at hstep
  · have hstep := step_of_timeout (s := s) (hd.symm ▸ hrx) (by rw [hd]; exact ⟨harmed, by omega⟩)
    rwa [hd] at hstep

end Sys2Proof.Machine

/-! SUPPORT. The commands of 42_commands.md: what the row of each command in R104 holds, and each command's next state
from the law of its operation. -/

namespace Sys2Proof.Machine

/-! ### What the rows of R104 hold -/

/-- A command replies with as many bytes as its column W says (R55). -/
theorem length_replyBytes_summaryEvents (P : Params) (i : Instr) (r : Radio) :
    ((summaryEvents P i r).flatMap Event.bytes).length = replyLength i := by
  cases i
  case rdlegacy =>
    rw [summaryEvents_rdlegacy, List.flatMap_append, flatMap_bytes_gets]
    rfl
  case ptton | pttoff => cases h : r.transmitting <;> simp only [summaryEvents, h] <;> rfl
  all_goals rfl

/-- A command refreshes the display once where its column R is marked, and never elsewhere. -/
theorem count_refresh_summaryEvents (P : Params) (i : Instr) (r : Radio) :
    (summaryEvents P i r).count .refresh = if refreshes i then 1 else 0 := by
  cases i
  case rdlegacy =>
    rw [summaryEvents_rdlegacy, List.count_append, count_refresh_gets]
    rfl
  case ptton | pttoff => cases h : r.transmitting <;> simp only [summaryEvents, h] <;> rfl
  all_goals rfl

/-- The commands that only read make no call that could change the radio (R106). -/
theorem filterMap_eventCall_summaryEvents (P : Params) (i : Instr) (r : Radio) (h : keepsRadio i = true) :
    (summaryEvents P i r).filterMap eventCall = [] := by
  cases i
  case setfreq | spliton | splitoff | mode | ptton | pttoff | vfotog => exact absurd h Bool.false_ne_true
  case rdlegacy =>
    rw [summaryEvents_rdlegacy, List.filterMap_append, filterMap_eventCall_gets]
    rfl
  all_goals rfl

theorem replayRadio_of_no_call (P : Params) (es : List Event) (r : Radio) (h : es.filterMap eventCall = []) :
    replayRadio P es r = r := by
  rw [replayRadio, h]
  rfl

/-! ### Decoding, the reference radio, the legacy table -/

/-- The first row wins whatever the other opcode values are. -/
theorem decodeWith_setFreq (m : OpcodeMap) (p1 p2 p3 p4 : Byte) :
    decodeWith m ⟨p1, p2, p3, p4, m.setFreq⟩ = .setfreq p1 p2 p3 p4 :=
  decodeWith_of_lookup m _ _ (if_pos rfl)

theorem radioAfter_of_reference (P : Params) (hP : P.react = referenceReact) (c : RadioCall) (r : Radio) :
    radioAfter P c r = referenceReact c r := by
  rw [radioAfter, hP]

theorem otherVfo_ne (v : Vfo) : otherVfo v ≠ v := by cases v <;> decide

theorem otherVfo_otherVfo (v : Vfo) : otherVfo (otherVfo v) = v := by cases v <;> rfl

/-- An unrecognised selector gives two zero bytes (R107). -/
theorem legacyTable_of_no_entry (T : LegacyTable) (a1 a0 : Byte) (r : Radio) (h55 : a1 ≠ 0x55)
    (h : T.entry a1 = none) : legacyTable T a1 a0 r = ([], 0x00, 0x00) := by
  rw [legacyTable, legacyVfoSelector, if_neg h55, h]

/-! ### The statements of 42_commands.md -/

/-- Settles O5: each of the eleven values is the opcode byte of its row. -/
theorem eachHandledOpcodeSelectsItsCommand : Obligations.EachHandledOpcodeSelectsItsCommand := by
  intro m hm p1 p2 p3 p4
  have hrows : ∀ row ∈ handledRows m, decodeWith m ⟨p1, p2, p3, p4, row.1⟩ = row.2 p1 p2 p3 p4 :=
    fun row hr => decodeWith_handledRow m hm row hr p1 p2 p3 p4
  simp only [handledRows, List.forall_mem_cons, List.not_mem_nil, false_imp_iff, implies_true, and_true] at hrows
  exact hrows

/-- Settles O54: the state after a command is made of its row, and each row is counted. -/
theorem effectsMatchTheSummaryTable : Obligations.EffectsMatchTheSummaryTable :=
  ⟨fun P i s => ⟨afterCommand P i s, execWith_eq P i s, rfl, rfl⟩,
    fun i s => ⟨afterCommand params i s, exec_eq i s, rfl, rfl⟩,
    fun P i r => ⟨length_replyBytes_summaryEvents P i r, countP_isWrite_summaryEvents P i r,
      count_refresh_summaryEvents P i r⟩⟩

/-- Settles O56: the rows of these commands hold no radio call, so nothing is replayed. -/
theorem readsChangeNoRadioState : Obligations.ReadsChangeNoRadioState := by
  intro i s t hkeeps ht
  obtain rfl := Host.Outcome.next.inj (exec_eq i s ▸ ht)
  have hcalls := filterMap_eventCall_summaryEvents params i s.radio hkeeps
  refine ⟨replayRadio_of_no_call params _ _ hcalls, ?_⟩
  rw [afterCommand_trace, List.filterMap_append, hcalls, List.append_nil]

/-- Settles O39: the state is the law of `setFrequency`, the bounds are those of the decoded value (R66). -/
theorem setFrequencyEffect : Obligations.SetFrequencyEffect := by
  obtain ⟨hvalue, hlargest, -, -, hexample⟩ := decodeFrequencyAddsUpNibbles
  refine ⟨decodeWith_setFreq, fun p1 p2 p3 p4 s => ?_, fun P p1 p2 p3 p4 s hP => ?_, by decide, hlargest, hexample⟩
  · obtain ⟨-, htens, hbound⟩ := hvalue p1 p2 p3 p4
    exact ⟨congrArg Host.Outcome.next (setFrequency_eq params p1 p2 p3 p4 s), htens, hbound⟩
  · rw [setFrequency_eq, radioAfter_of_reference P hP]
    rfl

/-- Settles O40: both commands are the one call of `setSplit`. -/
theorem splitOnAndOffEffect : Obligations.SplitOnAndOffEffect := by
  refine ⟨fun m hm p1 p2 p3 p4 => ⟨?_, ?_⟩, fun P on s hP => ?_, fun _ _ _ _ s => ⟨?_, ?_⟩⟩
  · exact decodeWith_handledRow m hm (m.splitOn, .spliton) (by simp [handledRows]) p1 p2 p3 p4
  · exact decodeWith_handledRow m hm (m.splitOff, .splitoff) (by simp [handledRows]) p1 p2 p3 p4
  · have hradio : (setSplit P on s).radio = { s.radio with split := on } := radioAfter_of_reference P hP _ _
    refine ⟨hradio, fun hsplit => hradio.trans ?_⟩
    rw [← hsplit]
  · exact congrArg Host.Outcome.next (setSplit_eq params true s)
  · exact congrArg Host.Outcome.next (setSplit_eq params false s)

/-- Settles O41: the law of `readFreqAndMode`, and what the BCD field loses. -/
theorem readFreqAndModeEffect : Obligations.ReadFreqAndModeEffect :=
  ⟨fun m hm => decodeWith_handledRow m hm (m.readFreqMode, .rdfreq) (by simp [handledRows]),
    fun _ _ _ _ s => ⟨congrArg Host.Outcome.next (readFreqAndMode_eq s), encodeFrequencyBCD_length _⟩,
    by decide, fun f g h => encodeFrequencyBCD_congr f g (by omega)⟩

/-- Settles O42: the law of `operatingMode`; the reference radio is given the frequency it already holds. -/
theorem operatingModeEffect : Obligations.OperatingModeEffect := by
  refine ⟨fun m hm => decodeWith_handledRow m hm (m.mode, .mode) (by simp [handledRows]), ?_,
    fun P p1 s hP => ?_, by decide, by decide, by decide, by decide⟩
  · rintro p1 p2 p3 p4 s _ _ rfl rfl
    exact congrArg Host.Outcome.next (operatingMode_eq params p1 s)
  · simp only [operatingMode_eq, radioAfter_of_reference P hP]
    rfl

/-- Settles O43: the two laws of `pttOn`, idle and busy. -/
theorem pttOnEffect : Obligations.PttOnEffect := by
  refine ⟨fun m hm => decodeWith_handledRow m hm (m.pttOn, .ptton) (by simp [handledRows]),
    fun P s hP hidle => ?_, fun _ _ _ _ s => ⟨fun hidle => ?_, fun hbusy => ?_⟩⟩
  · simp only [pttOn_idle P s hidle, radioAfter_of_reference P hP]
    rfl
  · exact congrArg Host.Outcome.next (pttOn_idle params s hidle)
  · exact congrArg Host.Outcome.next (pttOn_busy params s hbusy)

/-- Settles O44: the two laws of `pttOff`; a reference radio that does not transmit keeps that bit. -/
theorem pttOffEffect : Obligations.PttOffEffect := by
  refine ⟨fun m hm => decodeWith_handledRow m hm (m.pttOff, .pttoff) (by simp [handledRows]),
    fun P s hP => ?_, fun _ _ _ _ s => ⟨fun hactive => ?_, fun hidle => ?_⟩⟩
  · cases htx : s.radio.transmitting
    · simp only [pttOff_idle P s htx, radioAfter_of_reference P hP, ← htx]
      rfl
    · simp only [pttOff_transmitting P s htx, radioAfter_of_reference P hP]
      rfl
  · exact congrArg Host.Outcome.next (pttOff_transmitting params s hactive)
  · exact congrArg Host.Outcome.next (pttOff_idle params s hidle)

/-- Settles O45: the law of `vfoToggle`, and the other of the other VFO is the first. -/
theorem vfoToggleEffect : Obligations.VfoToggleEffect := by
  refine ⟨fun m hm => decodeWith_handledRow m hm (m.vfoToggle, .vfotog) (by simp [handledRows]), ?_,
    fun P s hP => ?_, fun v => ⟨otherVfo_ne v, otherVfo_otherVfo v⟩⟩
  · rintro p1 p2 p3 p4 s _ rfl
    exact congrArg Host.Outcome.next (vfoToggle_eq params s)
  · have hradio (s : State) : (vfoToggle P s).radio = { s.radio with vfo := otherVfo s.radio.vfo } := by
      rw [vfoToggle_eq, radioAfter_of_reference P hP]
      rfl
    refine ⟨hradio s, ?_⟩
    simp only [hradio, otherVfo_otherVfo]

/-- Settles O46: the law of `legacyRead` at the pair of the table. -/
theorem readLegacyEffect : Obligations.ReadLegacyEffect := by
  refine ⟨fun m hm => decodeWith_handledRow m hm (opLegacy, .rdlegacy) (by simp [handledRows]),
    legacyTable_of_no_entry, fun p1 p2 p3 p4 r0 r1 gs s htable => ?_⟩
  have hread := legacyRead_eq params p1 p2 s
  rw [htable] at hread
  exact congrArg _ hread

/-- Settles O51: the law of `readRxStatus`. -/
theorem readRxStatusEffect : Obligations.ReadRxStatusEffect :=
  ⟨fun m hm => decodeWith_handledRow m hm (m.readRxStatus, .rdrxs) (by simp [handledRows]),
    fun _ _ _ _ s => congrArg Host.Outcome.next (readRxStatus_eq params s), by decide⟩

/-- Settles O52: the law of `readTxStatus`. -/
theorem readTxStatusEffect : Obligations.ReadTxStatusEffect :=
  ⟨fun m hm => decodeWith_handledRow m hm (m.readTxStatus, .rdtxs) (by simp [handledRows]),
    fun _ _ _ _ s => congrArg Host.Outcome.next (readTxStatus_eq params s), by decide, by decide⟩

/-- Settles O53: every row of the default rule is `acknowledge`. -/
theorem defaultRowsAcknowledgeOnly : Obligations.DefaultRowsAcknowledgeOnly :=
  fun i s h => (exec_of_isDefaultRow i s h).trans (congrArg Host.Outcome.next (acknowledge_eq s))

end Sys2Proof.Machine

/-! SUPPORT. The legacy table of 43_legacy_registers.md, one law per branch (R107 to R110), and what of the radio it sees
(R106); the bits of the active-VFO byte (R108); `buf` after a command (R112). -/

namespace Sys2Proof.Machine

/-! ### The branches of the table -/

/-- The active-VFO entry takes no notice of `P1` (R108, D12). -/
theorem legacyTable_vfoSelector (T : LegacyTable) (a0 : Byte) (r : Radio) :
    legacyTable T 0x55 a0 r = ([.getActiveVfo], legacyVfoByte T.vfoFixed r.vfo, T.vfoR1) := rfl

section
variable {T : LegacyTable} {a1 a0 : Byte} {e : LegacyEntry}

/-- An entry whose check of `P1` fails calls no getter and gives two zero bytes (R110). -/
theorem legacyTable_of_failed_check {low : Byte} (r : Radio) (h55 : a1 ≠ 0x55) (he : T.entry a1 = some e)
    (hcheck : e.expectP1 = some low) (hne : a0 ≠ low) : legacyTable T a1 a0 r = ([], 0x00, 0x00) := by
  simp only [legacyTable, legacyVfoSelector, if_neg h55, he, hcheck, if_neg hne]

/-- An entry whose check of `P1` is met or absent runs its program (R109, R110). -/
theorem legacyTable_of_entry (r : Radio) (h55 : a1 ≠ 0x55) (he : T.entry a1 = some e)
    (hcheck : e.expectP1 = some a0 ∨ e.expectP1 = none) : legacyTable T a1 a0 r = runProgram e.program r := by
  rcases hcheck with hcheck | hcheck <;> simp only [legacyTable, legacyVfoSelector, if_neg h55, he, hcheck, if_true]

end

/-- At every address but the VFO entry's the table runs one program, chosen without the radio: the entry's, or the one
that replies with two zero bytes (R107, R110). -/
theorem legacyTable_eq_runProgram (T : LegacyTable) (a1 a0 : Byte) (h55 : a1 ≠ 0x55) :
    ∃ p, ∀ r, legacyTable T a1 a0 r = runProgram p r := by
  cases he : T.entry a1 with
  | none => exact ⟨.reply 0x00 0x00, fun r => legacyTable_of_no_entry T a1 a0 r h55 he⟩
  | some e =>
    cases hcheck : e.expectP1 with
    | none => exact ⟨e.program, fun r => legacyTable_of_entry r h55 he (.inr hcheck)⟩
    | some low =>
      by_cases hlow : a0 = low
      · exact ⟨e.program, fun r => legacyTable_of_entry r h55 he (.inl (hlow ▸ hcheck))⟩
      · exact ⟨.reply 0x00 0x00, fun r => legacyTable_of_failed_check r h55 he hcheck hlow⟩

/-! ### The radio through its getters (R106) -/

/-- A program sees the radio in the answers of the getters it calls. -/
theorem runProgram_congr (p : LegacyProgram) (r r' : Radio) (h : ∀ g, getterAnswer g r = getterAnswer g r') :
    runProgram p r = runProgram p r' := by
  induction p with
  | reply r0 r1 => rfl
  | ask g next ih =>
    rw [runProgram, runProgram, ← h g, ih]

theorem legacyTable_congr (T : LegacyTable) (a1 a0 : Byte) (r r' : Radio)
    (h : ∀ g, getterAnswer g r = getterAnswer g r') : legacyTable T a1 a0 r = legacyTable T a1 a0 r' := by
  by_cases h55 : a1 = 0x55
  · have hvfo : r.vfo = r'.vfo := Answer.vfo.inj (h .getActiveVfo)
    rw [h55, legacyTable_vfoSelector, legacyTable_vfoSelector, hvfo]
  · obtain ⟨p, hrun⟩ := legacyTable_eq_runProgram T a1 a0 h55
    rw [hrun, hrun, runProgram_congr p r r' h]

/-! ### The byte of the active-VFO entry (R108) -/

theorem legacyVfoByte_getLsbD_zero (fixed : Byte) (v : Vfo) :
    (legacyVfoByte fixed v).getLsbD 0 = true ↔ v = .b := by
  cases v <;> simp [legacyVfoByte]

theorem legacyVfoByte_getLsbD_high (fixed : Byte) (v : Vfo) (k : Nat) (hlow : 1 ≤ k) (hhigh : k ≤ 7) :
    (legacyVfoByte fixed v).getLsbD k = fixed.getLsbD k := by
  have hmask : (0xFE : Byte).getLsbD k = true := by
    interval_cases k <;> rfl
  have hflag : (if v = .b then (1 : Byte) else 0).getLsbD k = false := by
    cases v <;> interval_cases k <;> rfl
  rw [legacyVfoByte, BitVec.getLsbD_or, BitVec.getLsbD_and, hmask, hflag, Bool.and_true, Bool.or_false]

/-! ### `buf` after a command (R112) -/

@[simp] theorem commandBuf_p3 (P : Params) (i : Instr) (s : State) : (commandBuf P i s).p3 = s.buf.p3 := by
  cases i <;> rfl

@[simp] theorem commandBuf_p4 (P : Params) (i : Instr) (s : State) : (commandBuf P i s).p4 = s.buf.p4 := by
  cases i <;> rfl

/-- Only the legacy handler writes `buf`. -/
theorem commandBuf_of_ne_rdlegacy (P : Params) (i : Instr) (s : State)
    (h : ∀ p1 p2 p3 p4, i ≠ .rdlegacy p1 p2 p3 p4) : commandBuf P i s = s.buf := by
  cases i
  case rdlegacy p1 p2 p3 p4 => exact absurd rfl (h p1 p2 p3 p4)
  all_goals rfl

/-! ### The statements of 43_legacy_registers.md -/

/-- Settles O47: a selector without an entry, an entry whose check fails, and an entry that is run. -/
theorem unrecognisedLegacyAddressReadsZero : Obligations.UnrecognisedLegacyAddressReadsZero := by
  intro T a1 a0 r h55
  refine ⟨legacyTable_of_no_entry T a1 a0 r h55, fun e low he hcheck hne => ?_,
    fun e he hcheck => legacyTable_of_entry r h55 he hcheck⟩
  rw [legacyTable_of_failed_check r h55 he hcheck hne]

/-- Settles O48: the entry is run, and a program of a kind calls the getters of its kind in a row. -/
theorem legacyEntriesOfEachKindReadWhatTheyNeed : Obligations.LegacyEntriesOfEachKindReadWhatTheyNeed := by
  intro T a1 a0 r expect pair h55 hcheck k he
  rw [legacyTable_of_entry r h55 he hcheck.symm, legacyKindProgram, runProgram_askAll]
  cases k <;> rfl

/-- Settles O49: each branch of the table sees the radio through getters. -/
theorem legacyTableSeesTheRadioThroughGetters : Obligations.LegacyTableSeesTheRadioThroughGetters :=
  legacyTable_congr

/-- Settles O50: the first byte is `legacyVfoByte`, read bit by bit. -/
theorem legacyVfoEntryShowsTheActiveVfo : Obligations.LegacyVfoEntryShowsTheActiveVfo := fun T a0 r =>
  ⟨legacyVfoByte T.vfoFixed r.vfo, legacyTable_vfoSelector T a0 r, legacyVfoByte_getLsbD_zero T.vfoFixed r.vfo,
    legacyVfoByte_getLsbD_high T.vfoFixed r.vfo⟩

/-- Settles O55: the state after a command differs in `buf`, the radio and the trace only, and `commandBuf` says how
far `buf` does. -/
theorem commandsLeaveTheFramerAlone : Obligations.CommandsLeaveTheFramerAlone := by
  intro i s t ht
  obtain rfl := Host.Outcome.next.inj (exec_eq i s ▸ ht)
  exact ⟨rfl, rfl, rfl, rfl, rfl, rfl, commandBuf_p3 params i s, commandBuf_p4 params i s, commandBuf_cmd params i s,
    commandBuf_of_ne_rdlegacy params i s, _, afterCommand_trace params i s⟩

end Sys2Proof.Machine

/-! SUPPORT. The environment between two ticks (R121, R128): time does not go back, and without a reset the framer's own
fields stay as they are. -/

namespace Sys2Proof.Machine

/-- Time does not go back (R121). -/
theorem now_le_deliver_now (s : State) : s.now ≤ (deliver s).now := by
  rcases deliver_cases s with ⟨-, hd⟩ | ⟨x, rest, -, hd⟩ <;> rw [hd]
  rw [applyInput_now]
  exact Nat.le_add_right s.now x.elapsed

/-- A next move that is no reset, or none at all, touches no field of the framer (R128). -/
theorem deliver_framer_of_next_not_reset (s : State) (h : ∀ x ∈ s.schedule.head?, x.reset = false) :
    (deliver s).buf = s.buf ∧ (deliver s).fill = s.fill ∧ (deliver s).deadline = s.deadline ∧
      (deliver s).armed = s.armed := by
  rcases deliver_cases s with ⟨-, hd⟩ | ⟨x, rest, hsched, hd⟩ <;> rw [hd]
  · exact ⟨rfl, rfl, rfl, rfl⟩
  · rw [applyInput_of_no_reset x _ (h x (by simp [hsched]))]
    exact ⟨rfl, rfl, rfl, rfl⟩

/-! ### The statements of 60_exceptions.md -/

/-- Settles O17: the environment's move, field by field. -/
theorem environmentLeavesTheFramerAlone : Obligations.EnvironmentLeavesTheFramerAlone := fun s =>
  ⟨deliver_trace s, now_le_deliver_now s, deliver_rx_append s, deliver_framer_of_next_not_reset s⟩

/-- Settles O25: a step is a tick after the environment's move, and every tick has a next state. -/
theorem everyStepHasANextState : Obligations.EveryStepHasANextState := fun s =>
  step_eq_stepWith s ▸ tickWith_total params (deliver s)

end Sys2Proof.Machine

/-! SUPPORT. Reset and hazards (70_reset_and_hazards.md): the environment's reset between two ticks (R129), and the
unfinished frame of three bytes (R131). -/

namespace Sys2Proof.Machine

/-- A reset puts the framer in `Idle` and takes no byte: those that waited and those that arrive are in the queue
(R129, R130). -/
theorem deliver_of_reset (s : State) (x : TickInput) (rest : List TickInput) (hsched : s.schedule = x :: rest)
    (hreset : x.reset = true) :
    (deliver s).fill = 0 ∧ (deliver s).armed = false ∧ (deliver s).rx = s.rx ++ x.arrivals := by
  rw [deliver_of_input s x rest hsched, applyInput_fill, applyInput_armed, applyInput_rx, if_pos hreset, if_pos hreset]
  exact ⟨rfl, rfl, rfl⟩

theorem pendingBytes_of_fill_three (s : State) (h : s.fill = 3) :
    s.pendingBytes = [s.buf.p1, s.buf.p2, s.buf.p3] := by
  rw [State.pendingBytes, h]
  rfl

/-! ### The statements of 70_reset_and_hazards.md -/

/-- Settles O31: the two waiting bytes are counted behind the three of the unfinished frame, and the time plays no
part. -/
theorem staleBytesJoinWithoutAnEmptyTick : Obligations.StaleBytesJoinWithoutAnEmptyTick := by
  intro s b3 b4 rest hfill hs hrx
  obtain ⟨t, hrun, hdisp, htfill⟩ := run_dispatches_counted_frames [b3, b4] s rest hs hrx
  rw [pendingBytes_of_fill_three s hfill] at hdisp
  exact ⟨t, hrun, Fin.ext (by simpa [hfill] using htfill), hdisp⟩

/-- Settles O18: the reset disarms the deadline, so the tick that follows finds neither a byte nor a timeout. -/
theorem resetMidFrameDropsItSilently : Obligations.ResetMidFrameDropsItSilently := by
  intro s x rest hsched hreset hrx harr
  obtain ⟨hfill, harmed, hrxd⟩ := deliver_of_reset s x rest hsched hreset
  have hempty : (deliver s).rx = [] := by rw [hrxd, hrx, harr, List.nil_append]
  have hkeep : ¬((deliver s).armed = true ∧ (deliver s).deadline < (deliver s).now) := by simp [harmed]
  exact ⟨deliver s, step_of_no_timeout hempty hkeep, hfill, harmed, deliver_trace s, hempty⟩

end Sys2Proof.Machine
